-- ==== Sys2Proof/Word.lean ====
section
/-! DEFINITION. The word types of the block (spec/00_scope.md R9 to R11): a byte, a signed 16-bit
field and the 32-bit pattern of a floating operand. -/

namespace Sys2Proof

/-- `u8` of R11: a byte of a frame, of an operation word or of the receive buffer (R10). -/
abbrev Byte := BitVec 8

/-- The 16-bit pattern of an `i16` of R11; the signed value it stands for is `BitVec.toInt`
(two's complement, the spec's own G1 in 93_implementation_defined.md). -/
abbrev I16 := BitVec 16

/-- The 32-bit pattern of a floating operand (30_encoding.md R71). -/
abbrev Word32 := BitVec 32

end Sys2Proof
end

