-- ==== Sys2Proof/Config.lean ====
section
/-! DEFINITION. The constants of the block: the parameters the source fixes (spec/00_scope.md R7)
and those the spec sets a default for (R8; log entry 10). No operation can change one (10_state.md R21). -/

namespace Sys2Proof.Config

/-- MARKER, first byte (R7, R65). -/
def marker0 : Byte := 0x55
/-- MARKER, second byte (R7, R65). -/
def marker1 : Byte := 0x55
/-- MARKER as the byte string that prefixes every frame (R65). -/
def marker : List Byte := [marker0, marker1]
/-- MARKER_LEN (R7). -/
def markerLen : Nat := 2
/-- TLM_SIZE (R7). -/
def tlmSize : Nat := 6
/-- CMD_SIZE (R7). -/
def cmdSize : Nat := 7
/-- RX_FRAME_LEN (R7). -/
def rxFrameLen : Nat := markerLen + tlmSize
/-- TX_FRAME_LEN (R7). -/
def txFrameLen : Nat := markerLen + cmdSize
/-- WD_TIMEOUT_MS (R7). -/
def wdTimeoutMs : Nat := 500
/-- TX_PERIOD_MS (R7). -/
def txPeriodMs : Nat := 50
/-- T_TICK_MS at its default (R8, decision D3). DESIGN CHOICE, unsafe: log entry 10. -/
def tTickMs : Nat := 1
/-- WD_TICKS = WD_TIMEOUT_MS / T_TICK_MS (R8). -/
def wdTicks : Nat := wdTimeoutMs / tTickMs
/-- TX_TICKS = TX_PERIOD_MS / T_TICK_MS (R8). -/
def txTicks : Nat := txPeriodMs / tTickMs
/-- AXIS_MAX (R7). -/
def axisMax : Int := 32767
/-- N_AXES (R7). -/
def nAxes : Nat := 8
/-- DEG_NUM (R7). -/
def degNum : Int := 360
/-- DEG_DEN (R7). -/
def degDen : Int := 32767
/-- INFL_NUM, numerator of the influence coefficient (R7). -/
def inflNum : Int := 90
/-- INFL_DEN, denominator of the influence coefficient (R7). -/
def inflDen : Int := 32767
/-- LIM_DEFAULT (R7). -/
def limDefault : Nat := 32767
/-- CLAMP_LO (R8, decision D21). -/
def clampLo : Int := -32767
/-- CLAMP_HI (R8, decision D21). -/
def clampHi : Int := 32767
/-- PCT_MAX (R8, decision D22). -/
def pctMax : Nat := 100
/-- RXD_MAX (R8, decision D10). -/
def rxdMax : Nat := 255
/-- CAL_RESET, both components (R8, decision D19). -/
def calReset : Rat := 0

end Sys2Proof.Config
end

