-- ==== Sys2Proof/Syntax.lean ====
section
/-! DEFINITION. The syntax: one constructor of `Instr` per row of spec/opcode_table.json, the spaces
the rows' bytes travel in (20_memory.md R45), the output records (30_encoding.md R78) and the items a
host presents. -/

namespace Sys2Proof

/-- The spaces of 20_memory.md R45 a row of the opcode table can stand in (BUF aside, which holds
state, not presented items). -/
inductive Space where
  /-- The event port: every operation word (R72). -/
  | event
  /-- The RX stream: inbound wire frames. -/
  | rx
  /-- The TX stream: outbound wire frames. -/
  | tx
  /-- The output port: output records (R78). -/
  | out
  deriving DecidableEq, Repr

/-- The eight axis values of a JOY operation (30_encoding.md R77) and of the last-seen registers
JOY[0..7] (10_state.md R26). -/
structure Axes where
  /-- Axis 0: stick-1 X. -/
  a0 : I16
  /-- Axis 1: stick-1 Y. -/
  a1 : I16
  /-- Axis 2: stick-2 X. -/
  a2 : I16
  /-- Axis 3: stored, never read (R26). -/
  a3 : I16
  /-- Axis 4: stored, never read (R26). -/
  a4 : I16
  /-- Axis 5: stick-2 Y. -/
  a5 : I16
  /-- Axis 6: digital X. -/
  a6 : I16
  /-- Axis 7: digital Y. -/
  a7 : I16
  deriving DecidableEq, Repr

/-- An instruction: a row of spec/opcode_table.json with its operands. The first fifteen are the
operations of 30_encoding.md R73, `illegal` is every other word of the event port (R81), and the last
seven are the two wire frames (R63, R64) and the five output records (R78), which are no operations
(log entry 3). -/
inductive Instr where
  /-- RXB b: receive one byte (41_frame_sync.md R96). -/
  | rxb (b : Byte)
  /-- RXD d0 .. d(n-1): receive n bytes (R97). -/
  | rxd (d : List Byte)
  /-- RXE: transport read failure (R98). -/
  | rxe
  /-- TICK: one tick period of time has passed (42_watchdog.md R109). -/
  | tick
  /-- LNKO: the transport is open (43_transmitter.md R119). -/
  | lnko
  /-- LNKC: the transport is closed (R120). -/
  | lnkc
  /-- TXR w: result of the transport write (R121). -/
  | txr (w : Byte)
  /-- JOY a0 .. a7: joystick axes update (44_aggregator.md R131). -/
  | joy (a : Axes)
  /-- TDEV dx dy: tracker deviation update (R139), operands as binary32 patterns. -/
  | tdev (dx dy : Word32)
  /-- CDPD sx sy: calibration scale update (R141), operands as binary32 patterns. -/
  | cdpd (sx sy : Word32)
  /-- EPWR pl pr: engine power limit update (R133). -/
  | epwr (pl pr : Byte)
  /-- SHOT f: fire control (R135). -/
  | shot (f : Byte)
  /-- TSTA t: tracking status update (45_mode.md R148). -/
  | tsta (t : Byte)
  /-- PUBP: publish if dirty (44_aggregator.md R143). -/
  | pubp
  /-- RST: reset (46_system.md R152). -/
  | rst
  /-- ILLEGAL: a word of the event port that is no operation (46_system.md R153). -/
  | illegal (word : List Byte)
  /-- FRAME.TLM: an inbound wire frame on the RX stream (30_encoding.md R63). -/
  | frameTlm (yaw pitch roll : I16)
  /-- FRAME.CMD: an outbound wire frame on the TX stream (R64). -/
  | frameCmd (shot : Byte) (leftEngine rightEngine towerH : I16)
  /-- TXF record: the 9 bytes of an outbound frame (R78). -/
  | txf (frame : List Byte)
  /-- YPR record: raw yaw, pitch, roll (R78). -/
  | ypr (yaw pitch roll : I16)
  /-- STAT record: 0x01 online, 0x00 offline (R78). -/
  | stat (s : Byte)
  /-- INFL record: the whole command (R79). -/
  | infl (shot : Byte) (leftEngine rightEngine towerH gunV cameraV : I16) (tag : Byte)
  /-- LOG record: an error code (R78). -/
  | log (code : Byte)
  deriving DecidableEq, Repr

/-- An output record as it leaves the block (30_encoding.md R78 to R80), payload as on the port. -/
inductive Record where
  /-- 0x80 TXF: the 9 bytes of the outbound frame. -/
  | txf (frame : List Byte)
  /-- 0x81 YPR: raw yaw, pitch, roll. -/
  | ypr (yaw pitch roll : I16)
  /-- 0x82 STAT: 0x01 online, 0x00 offline. -/
  | stat (s : Byte)
  /-- 0x83 INFL: all seven fields of CMD. -/
  | infl (shot : Byte) (leftEngine rightEngine towerH gunV cameraV : I16) (tag : Byte)
  /-- 0x84 LOG: the code of 60_exceptions.md R157. -/
  | log (code : Byte)
  deriving DecidableEq, Repr

/-- What stands to be presented to the block next: bytes, delivered whole, in one of the spaces. -/
structure Item where
  /-- Where the bytes stand. -/
  space : Space
  /-- The bytes, byte 0 first (00_scope.md R10). -/
  bytes : List Byte
  deriving DecidableEq, Repr

/-- Why the bytes of a space other than the event port are no row of the opcode table. (On the event
port every byte string is a row: an operation or ILLEGAL, R81.) -/
inductive DecodeError where
  /-- On the RX stream, not the 8 bytes of FRAME.TLM (R63). -/
  | notTelemetryFrame
  /-- On the TX stream, not the 9 bytes of FRAME.CMD (R64). -/
  | notCommandFrame
  /-- On the output port, no record of R78 with its length of R80. -/
  | notRecord
  deriving DecidableEq, Repr

end Sys2Proof
end

