-- ==== Sys2Proof/Machine/Encoding.lean ====
section
/-! DEFINITION. What encoder, decoder and machine share about bits: byte order and field assembly
(30_encoding.md R67, R71, R77), the opcode and record-code numbers (R73, R78), and which words of the
event port are legal (R81). -/

namespace Sys2Proof

/-! ### Byte order (20_memory.md R51: little-endian everywhere) -/

/-- `lo8` of 00_scope.md R11. -/
def lo8 (w : I16) : Byte := w.extractLsb' 0 8

/-- `hi8` of R11. -/
def hi8 (w : I16) : Byte := w.extractLsb' 8 8

/-- The two bytes of an i16 in the order they travel (30_encoding.md R67). -/
def i16Bytes (w : I16) : List Byte := [lo8 w, hi8 w]

/-- The 16-bit field at bytes `lo`, `hi`: the pattern `hi * 256 + lo` (R67). -/
def i16OfBytes (lo hi : Byte) : I16 := hi ++ lo

/-- The four bytes of a floating operand, least significant first (R71, R77). -/
def word32Bytes (w : Word32) : List Byte :=
  [w.extractLsb' 0 8, w.extractLsb' 8 8, w.extractLsb' 16 8, w.extractLsb' 24 8]

/-- The 32-bit word `b3 b2 b1 b0` of R77 (`b0` least significant). -/
def word32OfBytes (b0 b1 b2 b3 : Byte) : Word32 := b3 ++ b2 ++ b1 ++ b0

/-- The first `n` bytes of a number, byte 0 its least significant. -/
def bytesOfNat : Nat → Nat → List Byte
  | 0, _ => []
  | n + 1, w => BitVec.ofNat 8 w :: bytesOfNat n (w / 256)

/-! ### Opcodes (30_encoding.md R73) -/

def opRxb : Byte := 0x01
def opRxd : Byte := 0x02
def opRxe : Byte := 0x03
def opTick : Byte := 0x04
def opLnko : Byte := 0x05
def opLnkc : Byte := 0x06
def opTxr : Byte := 0x07
def opJoy : Byte := 0x10
def opTdev : Byte := 0x11
def opCdpd : Byte := 0x12
def opEpwr : Byte := 0x13
def opShot : Byte := 0x14
def opTsta : Byte := 0x15
def opPubp : Byte := 0x16
def opRst : Byte := 0x7F

/-! ### Record codes (30_encoding.md R78) -/

def recTxf : Byte := 0x80
def recYpr : Byte := 0x81
def recStat : Byte := 0x82
def recInfl : Byte := 0x83
def recLog : Byte := 0x84

/-- The length R73 gives a word with opcode `op`; `args` is what follows the opcode, read only for
RXD, whose length is `2 +` byte 1 (R83). `none` where R73 has no such opcode, or where RXD lacks its
count byte. -/
def opLength (op : Byte) (args : List Byte) : Option Nat :=
  if op = opRxb then some 2
  else if op = opRxd then args.head?.map (fun n => 2 + n.toNat)
  else if op = opRxe then some 1
  else if op = opTick then some 1
  else if op = opLnko then some 1
  else if op = opLnkc then some 1
  else if op = opTxr then some 2
  else if op = opJoy then some 17
  else if op = opTdev then some 9
  else if op = opCdpd then some 9
  else if op = opEpwr then some 3
  else if op = opShot then some 2
  else if op = opTsta then some 2
  else if op = opPubp then some 1
  else if op = opRst then some 1
  else none

/-- Whether a word of the event port is legal: its opcode is in R73 and its length is the one R73
gives it; the empty word is illegal (R81). -/
def legalWord : List Byte → Bool
  | [] => false
  | op :: args => opLength op args == some (args.length + 1)

/-- The record lengths of R80, code byte included. -/
def recLength (code : Byte) : Option Nat :=
  if code = recTxf then some 10
  else if code = recYpr then some 7
  else if code = recStat then some 2
  else if code = recInfl then some 13
  else if code = recLog then some 2
  else none

end Sys2Proof
end

