-- ==== Sys2Proof/Machine/Operands.lean ====
section
/-! DEFINITION. The operand forms of operation words (spec/30_encoding.md R69 to R71, R77). -/

namespace Sys2Proof.Machine

/-- Boolean operand: 0x00 is false, every other byte is true (R69). -/
def boolOperand (b : Byte) : Bool := b != 0

/-- Percent operand: a value above PCT_MAX is taken as PCT_MAX (R70). -/
def percentOperand (b : Byte) : Nat := min b.toNat Config.pctMax

/-- An axis operand's value: the signed 16-bit integer (R77, R67). -/
def axisOperand (a : I16) : Int := a.toInt

/-- The sign bit of a binary32 word, as a factor (R71). -/
def floatSign (w : Word32) : Int := if w.getLsbD 31 then -1 else 1

/-- The exponent field `w[30:23]` (R71). -/
def floatExponent (w : Word32) : Nat := (w.extractLsb' 23 8).toNat

/-- The fraction field `w[22:0]` (R71). -/
def floatFraction (w : Word32) : Nat := (w.extractLsb' 0 23).toNat

/-- Floating operand: the exact rational a binary32 word denotes, `none` for NONFINITE (R71). Both
zeros give 0. `mkRat n d` is the rational `n / d`; the scaling by `2 ^ (e - 150)` is written as a
multiplication from `e = 150` on and as a division below. -/
def floatOperand (w : Word32) : Option Rat :=
  let e := floatExponent w
  let f := floatFraction w
  if e = 255 then none
  else if e = 0 then some (mkRat (floatSign w * f) (2 ^ 149))
  else if 150 ≤ e then some (mkRat (floatSign w * (2 ^ 23 + f) * 2 ^ (e - 150)) 1)
  else some (mkRat (floatSign w * (2 ^ 23 + f)) (2 ^ (150 - e)))

end Sys2Proof.Machine
end

