-- ==== Sys2Proof/Machine/Mixer.lean ====
section
/-! DEFINITION. The mixer's functions (spec/44_aggregator.md R125 to R130): exact arithmetic over the
integers and rationals, one truncation, one clamp (R145). -/

namespace Sys2Proof.Machine

/-- `trunc(q)`, rounding toward zero (00_scope.md R12): RND. -/
def trunc (q : Rat) : Int := q.num.tdiv q.den

/-- `clamp(x, CLAMP_LO, CLAMP_HI)` (00_scope.md R12, R8). -/
def clampCmd (x : Int) : Int :=
  if x < Config.clampLo then Config.clampLo
  else if Config.clampHi < x then Config.clampHi
  else x

/-- The i16 register value of a clamped result (10_state.md R28). -/
def toCmd (x : Int) : I16 := BitVec.ofInt 16 (clampCmd x)

/-- `shape(v, M) = trunc(v^3 * M / 32767^3)` (R125); the quotient of the exact integers, truncated
toward zero (R145 c). -/
def shape (v : Int) (m : Nat) : Int := (v ^ 3 * m).tdiv (Config.axisMax ^ 3)

/-- PCT2LIM(p) (R127). -/
def pct2lim (p : Byte) : Nat := percentOperand p * Config.limDefault / 100

/-- `digital != 0 ? digital : stick1` (R128). -/
def effective (digital stick : I16) : Int :=
  if digital ≠ 0 then axisOperand digital else axisOperand stick

/-- DRIVE (R128): the new (leftEngine, rightEngine). -/
def drive (a : Axes) (liml limr : Nat) : I16 × I16 :=
  let effX := effective a.a6 a.a0
  let effY := effective a.a7 a.a1
  let speed := -effY
  let turn := effX
  (toCmd (shape (speed - turn) liml), toCmd (shape (speed + turn) limr))

/-- AIM (R129): the new (towerH, gunV = cameraV), at the default ceiling. -/
def aim (a : Axes) : I16 × I16 :=
  (toCmd (shape (axisOperand a.a2) Config.limDefault),
   toCmd (shape (-axisOperand a.a5) Config.limDefault))

/-- One axis of TRACK (R130): `(d / s) / (90 / 32767)`, for a scale `s` that is not 0. -/
def trackAxis (d s : Rat) : I16 :=
  toCmd (trunc (d * Config.inflDen / (s * Config.inflNum)))

end Sys2Proof.Machine
end

