-- ==== Sys2Proof/Machine/State.lean ====
section
/-! DEFINITION. The state of the block (spec/10_state.md R20: "Nothing else persists from one
operation to the next"), the model's two port fields beside it, the reset state (R42,
70_reset_and_hazards.md R176), and the reasons a step could stop. -/

namespace Sys2Proof.Machine

/-- SYNCST, the Frame Synchronizer's sub-state (10_state.md R24). -/
inductive SyncState where
  /-- 0: searching for the marker. -/
  | seeking
  /-- 1: marker found, counting payload bytes. -/
  | locked
  deriving DecidableEq, Repr

/-- MODE (R34, 45_mode.md R147). -/
inductive Mode where
  /-- 0: manual aim via joystick. -/
  | search
  /-- 1: aim driven by the tracking signal. -/
  | track
  deriving DecidableEq, Repr

/-- TAG, the angle-interpretation marker of the command (R29). -/
inductive Tag where
  /-- 0: Velocity, the tag of Search. -/
  | velocity
  /-- 1: Position, the tag of Track. -/
  | position
  deriving DecidableEq, Repr

/-- The error classes of 60_exceptions.md R157. -/
inductive ErrorClass where
  /-- E_RDFAIL: transport read failure (R158). -/
  | rdFail
  /-- E_WRFAIL: transport write failure (R159). -/
  | wrFail
  /-- E_SHORTWR: short write (R160). -/
  | shortWr
  /-- E_NUM: non-finite operand or zero scale (R161). -/
  | num
  /-- E_ILLOP: illegal operation word (R162). -/
  | illOp
  deriving DecidableEq, Repr

/-- A two-dimensional value such as DEV and CAL (10_state.md R36, R37): each component a rational
(log entry 8). -/
structure Pair where
  /-- X component. -/
  x : Rat
  /-- Y component. -/
  y : Rat
  deriving DecidableEq, Repr

/-- CMD, the one live ActuatorCommand, with its seven fields (R27; gunV and cameraV are two fields
that hold one value, R44). -/
structure Command where
  /-- u8, 0 or 1. -/
  shot : Byte
  /-- Left engine power. -/
  leftEngine : I16
  /-- Right engine power. -/
  rightEngine : I16
  /-- Turret horizontal. -/
  towerH : I16
  /-- Gun vertical. -/
  gunV : I16
  /-- Camera vertical. -/
  cameraV : I16
  /-- TAG (R29). -/
  tag : Tag
  deriving DecidableEq, Repr

/-- The state: S0 to S17 of R20, then the model's own `pending` and `outPort`. -/
structure State where
  /-- S0 BUF, the receive buffer, oldest byte first (R23). -/
  buf : List Byte
  /-- S1 SYNCST (R24). -/
  syncst : SyncState
  /-- S2 LINK: whether the link is online (R30). -/
  link : Bool
  /-- S3 WDCNT: TICK operations still to come before the watchdog expires, 0 = not armed (R31). -/
  wdcnt : Nat
  /-- S4 TXCNT: TICK operations since the last send tick (R32). -/
  txcnt : Nat
  /-- S5 LNKOPEN: whether the transport is open (R33). -/
  lnkopen : Bool
  /-- S6 JOY[0..7], the last-seen axis values (R26). -/
  joy : Axes
  /-- S7 DEV, the tracker deviation (R37). -/
  dev : Pair
  /-- S8 CAL, the calibration scale; a component 0 means not calibrated (R36). -/
  cal : Pair
  /-- S9 LIML, the left engine's ceiling (R38). -/
  liml : Nat
  /-- S10 LIMR, the right engine's ceiling (R38). -/
  limr : Nat
  /-- S11 MODE (R34). -/
  mode : Mode
  /-- S12 to S17: CMD with TAG (R27, R29). -/
  cmd : Command
  /-- S17 DIRTY: CMD may differ from the last INFL record (R35). -/
  dirty : Bool
  /-- The model's own: what the host has yet to present, next item first (log entry 1). -/
  pending : List Item
  /-- The model's own: the records emitted so far, oldest first (log entry 2). -/
  outPort : List Record
  deriving DecidableEq, Repr

/-- Faults: none. Every operation is total and the block has no halted, stuck or trapped state
(00_scope.md R6, 60_exceptions.md R175); its errors are LOG records. -/
inductive Fault where
  deriving DecidableEq, Repr

/-- Refusals: no instruction and no step answers one (00_scope.md R6, 60_exceptions.md R175). -/
inductive Refusal where
  /-- Raised by `exec` alone, for an instruction without a meaning; no arm uses it. Safe. -/
  | notModelled (mnemonic : String)
  deriving DecidableEq, Repr

/-- All eight last-seen axes 0 (R26). -/
def axesZero : Axes := ⟨0, 0, 0, 0, 0, 0, 0, 0⟩

/-- The command of the reset state: all fields 0, tag Velocity (R176). -/
def commandReset : Command :=
  { shot := 0, leftEngine := 0, rightEngine := 0, towerH := 0, gunV := 0, cameraV := 0,
    tag := .velocity }

/-- The state after power-on (R42, 70_reset_and_hazards.md R176). Every value is the spec's but the
two empty ports, which are the model's (DESIGN CHOICE, log entries 1 and 2). -/
def State.reset : State :=
  { buf := [], syncst := .seeking, link := false, wdcnt := 0, txcnt := 0, lnkopen := false,
    joy := axesZero, dev := ⟨0, 0⟩, cal := ⟨Config.calReset, Config.calReset⟩,
    liml := Config.limDefault, limr := Config.limDefault, mode := .search,
    cmd := commandReset, dirty := false, pending := [], outPort := [] }

end Sys2Proof.Machine
end

