-- ==== Sys2Proof/Machine/Flags.lean ====
section
/-! DEFINITION. The block's flag computations: when DIRTY is set (spec/44_aggregator.md R137) and what
the mode bit makes of the tag (45_mode.md R148). The other flags of 10_state.md R39 are written by
the one procedure named there. -/

namespace Sys2Proof.Machine

/-- `DIRTY <- 1` (10_state.md R35). -/
def State.setDirty (s : State) : State := { s with dirty := true }

/-- `DIRTY <- 1` when a recomputed field differs, else DIRTY as it was: the result gate of JOY and
TDEV (R137); it never clears. -/
def State.dirtyIf (s : State) (differs : Bool) : State :=
  if differs then s.setDirty else s

/-- The tag that belongs to a mode: Position for Track, Velocity for Search (45_mode.md R148). -/
def Mode.tag : Mode → Tag
  | .search => .velocity
  | .track => .position

/-- The byte of a tag: 0x00 Velocity, 0x01 Position (30_encoding.md R79). -/
def Tag.byte : Tag → Byte
  | .velocity => 0
  | .position => 1

/-- The byte of a link state: 0x01 online, 0x00 offline (30_encoding.md R78). -/
def linkByte (online : Bool) : Byte := if online then 1 else 0

end Sys2Proof.Machine
end

