-- ==== Sys2Proof/Machine/Ops.lean ====
section
/-! DEFINITION. The shared operations: the receive buffer's primitives (spec/00_scope.md R14), `emit`
(R13), and `raise` (R15), the block's one way to report an error. There is no return operation beside
it: an error transfers control nowhere (60_exceptions.md R168, R169). -/

namespace Sys2Proof.Machine

/-! ### Primitives of the receive buffer (R14, 20_memory.md R46) -/

/-- `MemRead(i, n)`: bytes `BUF[i] .. BUF[i+n-1]`. -/
def State.memRead (s : State) (i n : Nat) : List Byte := (s.buf.drop i).take n

/-- `BufAppend(b)`. -/
def State.bufAppend (s : State) (b : Byte) : State := { s with buf := s.buf ++ [b] }

/-- `for k in 0 .. n-1: BufAppend(d[k])` (41_frame_sync.md R97). -/
def State.bufAppendAll (s : State) (d : List Byte) : State := d.foldl State.bufAppend s

/-- `BufDrop(n)`. -/
def State.bufDrop (s : State) (n : Nat) : State := { s with buf := s.buf.drop n }

/-- `BufKeepLast(n)`, which is `BufDrop(len(BUF) - n)` (20_memory.md R46). -/
def State.bufKeepLast (s : State) (n : Nat) : State := s.bufDrop (s.buf.length - n)

/-- `Find2(m0, m1)` on a byte string: the least index of the adjacent pair `m0 m1`. -/
def find2 (m0 m1 : Byte) : List Byte → Option Nat
  | a :: b :: rest =>
    if a = m0 ∧ b = m1 then some 0 else (find2 m0 m1 (b :: rest)).map (· + 1)
  | _ => none

/-! ### Output -/

/-- `emit O` (R13): the record goes to the end of what has been emitted (20_memory.md R58). -/
def State.emit (s : State) (r : Record) : State := { s with outPort := s.outPort ++ [r] }

/-- The bytes on the TX stream: those of the TXF records, in order (20_memory.md R50). -/
def State.txStream (s : State) : List Byte :=
  s.outPort.flatMap fun r =>
    match r with
    | .txf frame => frame
    | _ => []

/-! ### Errors -/

/-- The code of an error class (60_exceptions.md R157). -/
def ErrorClass.code : ErrorClass → Byte
  | .rdFail => 0x01
  | .wrFail => 0x02
  | .shortWr => 0x03
  | .num => 0x04
  | .illOp => 0x05

/-- `raise E()` (R15, 60_exceptions.md R168): emit `LOG(code of E)`, change nothing else, end the
operation; what was written before stays written. -/
def raise (e : ErrorClass) (s : State) : Host.Outcome State Fault Refusal :=
  .next (s.emit (.log e.code))

end Sys2Proof.Machine
end

