-- ==== Sys2Proof/Machine/Aggregator.lean ====
section
/-! DEFINITION. The Input Aggregator's operations JOY, EPWR, SHOT, TDEV, CDPD, PUBP
(spec/44_aggregator.md). -/

namespace Sys2Proof.Machine

/-- The three aiming fields get `h` and `v`, DIRTY is set if one of them differs (R131, R139: the
result gate, then the writes). -/
def storeAim (hv : I16 × I16) (s : State) : State :=
  let s' := s.dirtyIf (hv.1 != s.cmd.towerH || hv.2 != s.cmd.gunV || hv.2 != s.cmd.cameraV)
  { s' with cmd := { s'.cmd with towerH := hv.1, gunV := hv.2, cameraV := hv.2 } }

/-- The two engine fields get `l` and `r`, DIRTY is set if one of them differs (R131). -/
def storeDrive (lr : I16 × I16) (s : State) : State :=
  let s' := s.dirtyIf (lr.1 != s.cmd.leftEngine || lr.2 != s.cmd.rightEngine)
  { s' with cmd := { s'.cmd with leftEngine := lr.1, rightEngine := lr.2 } }

/-- Whether a stick-2 axis differs from its last-seen value (R131). -/
def aimChanged (a old : Axes) : Bool := a.a2 != old.a2 || a.a5 != old.a5

/-- Whether one of the four drive-related axes differs from its last-seen value (R131). -/
def driveChanged (a old : Axes) : Bool :=
  a.a0 != old.a0 || a.a1 != old.a1 || a.a6 != old.a6 || a.a7 != old.a7

/-- The aiming part of JOY: Search only, on a raw change (R131). -/
def joyAim (a : Axes) (s : State) : State :=
  if s.mode = .search ∧ aimChanged a s.joy then storeAim (aim a) s else s

/-- The drive part of JOY: either mode, on a raw change (R131). -/
def joyDrive (a : Axes) (s : State) : State :=
  if driveChanged a s.joy then storeDrive (drive a s.liml s.limr) s else s

/-- JOY(a) (R131): aiming, drive, then all eight last-seen values in either mode. -/
def execJoy (a : Axes) (s : State) : Host.Outcome State Fault Refusal :=
  .next { joyDrive a (joyAim a s) with joy := a }

/-- EPWR(pl, pr) (R133): the ceilings only. -/
def execEpwr (pl pr : Byte) (s : State) : Host.Outcome State Fault Refusal :=
  .next { s with liml := pct2lim pl, limr := pct2lim pr }

/-- SHOT(f) (R135): the shot field, and DIRTY whether or not it changed. -/
def execShot (f : Byte) (s : State) : Host.Outcome State Fault Refusal :=
  .next { s with cmd := { s.cmd with shot := if boolOperand f then 1 else 0 } }.setDirty

/-- TDEV(dx, dy) (R139): E_NUM before any write for a NONFINITE operand; DEV stored in either mode;
in Track E_NUM for a zero scale component, else the tracking recompute. -/
def execTdev (dx dy : Word32) (s : State) : Host.Outcome State Fault Refusal :=
  match floatOperand dx, floatOperand dy with
  | some x, some y =>
    let s' := { s with dev := ⟨x, y⟩ }
    if s'.mode ≠ .track then .next s'
    else if s'.cal.x = 0 ∨ s'.cal.y = 0 then raise .num s'
    else .next (storeAim (trackAxis x s'.cal.x, trackAxis y s'.cal.y) s')
  | _, _ => raise .num s

/-- CDPD(sx, sy) (R141): E_NUM for a NONFINITE operand, else CAL only. -/
def execCdpd (sx sy : Word32) (s : State) : Host.Outcome State Fault Refusal :=
  match floatOperand sx, floatOperand sy with
  | some x, some y => .next { s with cal := ⟨x, y⟩ }
  | _, _ => raise .num s

/-- The INFL record of a command: all seven fields (R143, 30_encoding.md R79). -/
def Command.record (c : Command) : Record :=
  .infl c.shot c.leftEngine c.rightEngine c.towerH c.gunV c.cameraV c.tag.byte

/-- PUBP() (R143): when DIRTY, one INFL of CMD, then DIRTY is cleared. -/
def execPubp (s : State) : Host.Outcome State Fault Refusal :=
  if s.dirty = false then .next s
  else .next { s.emit s.cmd.record with dirty := false }

end Sys2Proof.Machine
end

