-- ==== Sys2Proof/Machine/Codec.lean ====
section
/-! DEFINITION. The Binary Codec (spec/40_codec.md): pure functions between byte strings and field
tuples. ENC_TLM, DEC_CMD and DEG are called by no operation (decision D37). -/

namespace Sys2Proof.Machine

/-- A TelemetrySample: three raw angles (00_scope.md R19). -/
structure Telemetry where
  /-- Raw yaw. -/
  yaw : I16
  /-- Raw pitch. -/
  pitch : I16
  /-- Raw roll. -/
  roll : I16
  deriving DecidableEq, Repr

/-- The four fields the command layout carries (40_codec.md R85). -/
structure WireCommand where
  /-- Fire flag byte. -/
  shot : Byte
  /-- Left engine power. -/
  leftEngine : I16
  /-- Right engine power. -/
  rightEngine : I16
  /-- Turret horizontal. -/
  towerH : I16
  deriving DecidableEq, Repr

/-- ENC_CMD (R86): 7 bytes. -/
def encCmd (shot : Byte) (leftEngine rightEngine towerH : I16) : List Byte :=
  shot :: (i16Bytes leftEngine ++ i16Bytes rightEngine ++ i16Bytes towerH)

/-- DEC_TLM (R87) on exactly 6 bytes; on another length it has no meaning and this has no value
(R88, log entry 17). -/
def decTlm : List Byte → Option Telemetry
  | [p0, p1, p2, p3, p4, p5] => some ⟨i16OfBytes p0 p1, i16OfBytes p2 p3, i16OfBytes p4 p5⟩
  | _ => none

/-- ENC_TLM (R89): 6 bytes. -/
def encTlm (yaw pitch roll : I16) : List Byte :=
  i16Bytes yaw ++ i16Bytes pitch ++ i16Bytes roll

/-- DEC_CMD (R90) on exactly 7 bytes; the shot byte is returned unchanged (30_encoding.md R68). -/
def decCmd : List Byte → Option WireCommand
  | [c0, c1, c2, c3, c4, c5, c6] =>
    some ⟨c0, i16OfBytes c1 c2, i16OfBytes c3 c4, i16OfBytes c5 c6⟩
  | _ => none

/-- DEG (R91): a raw angle in degrees, an exact rational. -/
def deg (v : I16) : Rat := (v.toInt : Rat) * Config.degNum / Config.degDen

end Sys2Proof.Machine
end

