-- ==== Sys2Proof/Machine/Watchdog.lean ====
section
/-! DEFINITION. The Liveness Watchdog's procedures (spec/42_watchdog.md R105 to R108). The operation
TICK, which drives them and the send timer, is in Transmitter.lean. -/

namespace Sys2Proof.Machine

/-- SETLINK(s) (R106): the only writer of LINK but reset; STAT on a change only. -/
def setLink (online : Bool) (s : State) : State :=
  if s.link = online then s
  else { s with link := online }.emit (.stat (linkByte online))

/-- WD_FRAME() (R107): re-arm the timer to its full length and mark the link online. -/
def wdFrame (s : State) : State := setLink true { s with wdcnt := Config.wdTicks }

/-- WD_STEP() (R108): one-shot down-counter; the link goes offline when it reaches 0. -/
def wdStep (s : State) : State :=
  if s.wdcnt = 0 then s
  else
    let s' := { s with wdcnt := s.wdcnt - 1 }
    if s'.wdcnt = 0 then setLink false s' else s'

end Sys2Proof.Machine
end

