-- ==== Sys2Proof/Machine/FrameSync.lean ====
section
/-! DEFINITION. The Frame Synchronizer (spec/41_frame_sync.md): procedure SYNC and the operations RXB,
RXD, RXE. -/

namespace Sys2Proof.Machine

/-- The Seeking part of one pass of SYNC (R95): wait below two bytes; else lock on the first marker,
dropping what precedes it, or keep the last byte when there is none. -/
def syncSeek (s : State) : State :=
  match s.syncst with
  | .locked => s
  | .seeking =>
    if s.buf.length < Config.markerLen then s
    else
      match find2 Config.marker0 Config.marker1 s.buf with
      | none => s.bufKeepLast (Config.markerLen - 1)
      | some i => { s.bufDrop i with syncst := .locked }

/-- The Locked part of one pass, on a buffer that holds a whole frame (R95): watchdog first, then
decoding and publication, then removal. DEC_TLM gets exactly six bytes there (R88). -/
def syncFrame (s : State) : State :=
  let s := wdFrame s
  match decTlm (s.memRead Config.markerLen Config.tlmSize) with
  | some t =>
    { (s.emit (.ypr t.yaw t.pitch t.roll)).bufDrop Config.rxFrameLen with syncst := .seeking }
  | none => s

/-- The loop of SYNC (R95), run for at most `fuel` passes. -/
def syncLoop : Nat → State → State
  | 0, s => s
  | fuel + 1, s =>
    let s := syncSeek s
    if s.syncst = .locked ∧ Config.rxFrameLen ≤ s.buf.length then syncLoop fuel (syncFrame s) else s

/-- Procedure SYNC (R95). Every pass but the last removes the 8 bytes of a frame, so
`len(BUF) / 8 + 1` passes always reach the one that returns (log entry 11). -/
def sync (s : State) : State := syncLoop (s.buf.length / Config.rxFrameLen + 1) s

/-- RXB(b) (R96). -/
def execRxb (b : Byte) (s : State) : Host.Outcome State Fault Refusal :=
  .next (sync (s.bufAppend b))

/-- RXD(n, d) (R97). -/
def execRxd (d : List Byte) (s : State) : Host.Outcome State Fault Refusal :=
  .next (sync (s.bufAppendAll d))

/-- RXE() (R98). -/
def execRxe (s : State) : Host.Outcome State Fault Refusal := raise .rdFail s

end Sys2Proof.Machine
end

