-- ==== Sys2Proof/Machine/ModeMachine.lean ====
section
/-! DEFINITION. The Mode State Machine: operation TSTA (spec/45_mode.md). -/

namespace Sys2Proof.Machine

/-- The mode a tracking status selects (R148). -/
def modeOfStatus (t : Bool) : Mode := if t then .track else .search

/-- TSTA(t) (R148): MODE, the tag that belongs to it, and DIRTY, also when nothing changes (R149). -/
def execTsta (t : Byte) (s : State) : Host.Outcome State Fault Refusal :=
  let m := modeOfStatus (boolOperand t)
  .next { s with mode := m, cmd := { s.cmd with tag := m.tag } }.setDirty

end Sys2Proof.Machine
end

