-- ==== Sys2Proof/Machine/Transmitter.lean ====
section
/-! DEFINITION. The Command Transmitter (spec/43_transmitter.md): procedures SEND and TX_STEP, the
operations LNKO, LNKC, TXR, and TICK (42_watchdog.md R109), which drives both timers. -/

namespace Sys2Proof.Machine

/-- The outbound frame of a command: the marker, then ENC_CMD of its four wire fields (R116,
30_encoding.md R64). -/
def commandFrame (c : Command) : List Byte :=
  Config.marker ++ encCmd c.shot c.leftEngine c.rightEngine c.towerH

/-- SEND() (R116): nothing while the transport is closed or the link offline, else one TXF of the
live CMD. -/
def send (s : State) : State :=
  if s.lnkopen = false then s
  else if s.link = false then s
  else s.emit (.txf (commandFrame s.cmd))

/-- TX_STEP() (R115): a free-running counter modulo TX_TICKS. -/
def txStep (s : State) : State :=
  let s' := { s with txcnt := s.txcnt + 1 }
  if s'.txcnt = Config.txTicks then send { s' with txcnt := 0 } else s'

/-- TICK() (42_watchdog.md R109): the watchdog step first, then the send step. -/
def execTick (s : State) : Host.Outcome State Fault Refusal := .next (txStep (wdStep s))

/-- LNKO() (R119). -/
def execLnko (s : State) : Host.Outcome State Fault Refusal := .next { s with lnkopen := true }

/-- LNKC() (R120). -/
def execLnkc (s : State) : Host.Outcome State Fault Refusal := .next { s with lnkopen := false }

/-- TXR(w) (R121): 0xFF a failed write, below 9 a short one, else nothing to do. -/
def execTxr (w : Byte) (s : State) : Host.Outcome State Fault Refusal :=
  if w = 0xFF then raise .wrFail s
  else if w.toNat < Config.txFrameLen then raise .shortWr s
  else .next s

end Sys2Proof.Machine
end

