-- ==== Sys2Proof/Machine/Records.lean ====
section
/-! DEFINITION. The rows of the opcode table that are no operations: the two wire frames and the five
output records, each with the effect its arrival or emission has (log entry 3). DESIGN CHOICE,
unsafe: a statement about what makes the block emit names the operations. -/

namespace Sys2Proof.Machine

/-- FRAME.TLM on the RX stream: its eight bytes reach the synchronizer, marker first (spec/30_encoding.md
R63), which is the pseudo-operation `RXF y p r` (R84, 41_frame_sync.md R95). -/
def execFrameTlm (yaw pitch roll : I16) (s : State) : Host.Outcome State Fault Refusal :=
  .next (sync (s.bufAppendAll (Config.marker ++ encTlm yaw pitch roll)))

/-- FRAME.CMD on the TX stream: only a TXF record writes that stream, one frame whole
(20_memory.md R50, 43_transmitter.md R116). -/
def execFrameCmd (shot : Byte) (l r t : I16) (s : State) : Host.Outcome State Fault Refusal :=
  .next (s.emit (.txf (Config.marker ++ encCmd shot l r t)))

/-- TXF on the output port: the record is emitted (00_scope.md R13, 30_encoding.md R78). -/
def execTxf (frame : List Byte) (s : State) : Host.Outcome State Fault Refusal :=
  .next (s.emit (.txf frame))

/-- YPR on the output port (R78). -/
def execYpr (yaw pitch roll : I16) (s : State) : Host.Outcome State Fault Refusal :=
  .next (s.emit (.ypr yaw pitch roll))

/-- STAT on the output port (R78); LINK is SETLINK's to write, not the record's (10_state.md R30). -/
def execStat (online : Byte) (s : State) : Host.Outcome State Fault Refusal :=
  .next (s.emit (.stat online))

/-- INFL on the output port (R79). -/
def execInfl (shot : Byte) (l r t g c : I16) (tag : Byte) (s : State) :
    Host.Outcome State Fault Refusal :=
  .next (s.emit (.infl shot l r t g c tag))

/-- LOG on the output port (R78, 60_exceptions.md R157). -/
def execLog (code : Byte) (s : State) : Host.Outcome State Fault Refusal :=
  .next (s.emit (.log code))

end Sys2Proof.Machine
end

