-- ==== Sys2Proof/Machine/System.lean ====
section
/-! DEFINITION. The system operations: RST, and the word that is no operation (spec/46_system.md). -/

namespace Sys2Proof.Machine

/-- RST() (R152): every item of 10_state.md R20 at its reset value, nothing emitted. What the host has
yet to present and what it has been given are not block state (10_state.md R21) and stay (log
entries 1 and 2). -/
def execRst (s : State) : Host.Outcome State Fault Refusal :=
  .next { State.reset with pending := s.pending, outPort := s.outPort }

/-- ILLEGAL(word) (R153): E_ILLOP, whatever the word is. -/
def execIllegal (_word : List Byte) (s : State) : Host.Outcome State Fault Refusal := raise .illOp s

end Sys2Proof.Machine
end

