-- ==== Sys2Proof/Machine/Dispatch.lean ====
section
/-! DEFINITION. One arm per row of spec/opcode_table.json. -/

namespace Sys2Proof.Machine

/-- What an instruction does (the `rule` column of spec/opcode_table.json). -/
def exec (i : Instr) (s : State) : Host.Outcome State Fault Refusal :=
  match i with
  | .rxb b => Sys2Proof.Machine.execRxb b s
  | .rxd d => Sys2Proof.Machine.execRxd d s
  | .rxe => Sys2Proof.Machine.execRxe s
  | .tick => Sys2Proof.Machine.execTick s
  | .lnko => Sys2Proof.Machine.execLnko s
  | .lnkc => Sys2Proof.Machine.execLnkc s
  | .txr w => Sys2Proof.Machine.execTxr w s
  | .joy a => Sys2Proof.Machine.execJoy a s
  | .tdev dx dy => Sys2Proof.Machine.execTdev dx dy s
  | .cdpd sx sy => Sys2Proof.Machine.execCdpd sx sy s
  | .epwr pl pr => Sys2Proof.Machine.execEpwr pl pr s
  | .shot f => Sys2Proof.Machine.execShot f s
  | .tsta t => Sys2Proof.Machine.execTsta t s
  | .pubp => Sys2Proof.Machine.execPubp s
  | .rst => Sys2Proof.Machine.execRst s
  | .illegal word => Sys2Proof.Machine.execIllegal word s
  | .frameTlm yaw pitch roll => Sys2Proof.Machine.execFrameTlm yaw pitch roll s
  | .frameCmd shot l r t => Sys2Proof.Machine.execFrameCmd shot l r t s
  | .txf frame => Sys2Proof.Machine.execTxf frame s
  | .ypr yaw pitch roll => Sys2Proof.Machine.execYpr yaw pitch roll s
  | .stat online => Sys2Proof.Machine.execStat online s
  | .infl shot l r t g c tag => Sys2Proof.Machine.execInfl shot l r t g c tag s
  | .log code => Sys2Proof.Machine.execLog code s

end Sys2Proof.Machine
end

