-- ==== Sys2Proof/WellFormed.lean ====
section
/-! DEFINITION. Which terms of the syntax the encoding admits (30_encoding.md R76, R78 to R81). -/

namespace Sys2Proof

/-- Which records the block can emit (30_encoding.md R78 to R80, 60_exceptions.md R157). -/
def Record.wf : Record → Bool
  | .txf frame => frame.length == Config.txFrameLen && frame.take Config.markerLen == Config.marker
  | .ypr _ _ _ => true
  | .stat s => s == 0 || s == 1
  | .infl shot _ _ _ _ _ tag => (shot == 0 || shot == 1) && (tag == 0 || tag == 1)
  | .log code => decide (1 ≤ code.toNat) && decide (code.toNat ≤ 5)

/-- Well-formedness of an instruction: RXD carries at most RXD_MAX bytes (its count is a u8, R76),
ILLEGAL stands for an illegal word only (R81), the shot byte of a command frame is 0 or 1 (R64), and a
record is one the block can emit (R78, R157). Every other operand is legal at every value (R82). -/
def Instr.wf : Instr → Bool
  | .rxb _ => true
  | .rxd d => decide (d.length ≤ Config.rxdMax)
  | .rxe => true
  | .tick => true
  | .lnko => true
  | .lnkc => true
  | .txr _ => true
  | .joy _ => true
  | .tdev _ _ => true
  | .cdpd _ _ => true
  | .epwr _ _ => true
  | .shot _ => true
  | .tsta _ => true
  | .pubp => true
  | .rst => true
  | .illegal word => !legalWord word
  | .frameTlm _ _ _ => true
  | .frameCmd sh _ _ _ => sh == 0 || sh == 1
  | .txf frame => (Record.txf frame).wf
  | .ypr yaw pitch roll => (Record.ypr yaw pitch roll).wf
  | .stat s => (Record.stat s).wf
  | .infl sh l r t g c tag => (Record.infl sh l r t g c tag).wf
  | .log code => (Record.log code).wf

/-- The operations of 30_encoding.md R73: what the host can present on the event port and the block
takes as legal. -/
def Instr.isOperation : Instr → Bool
  | .rxb _ | .rxd _ | .rxe | .tick | .lnko | .lnkc | .txr _ | .joy _ | .tdev _ _ | .cdpd _ _
  | .epwr _ _ | .shot _ | .tsta _ | .pubp | .rst => true
  | .illegal _ | .frameTlm _ _ _ | .frameCmd _ _ _ _ | .txf _ | .ypr _ _ _ | .stat _
  | .infl _ _ _ _ _ _ _ | .log _ => false

end Sys2Proof
end

