-- ==== Sys2Proof/Decode.lean ====
section
/-! DEFINITION. The decoder (total on any bytes of any space) and, after it, the encoder, both written
from the encoding tables of 30_encoding.md R63, R64, R73 to R80; then `decodeTableWord`, the decoder
on the opcode table's own bit numbering. -/

namespace Sys2Proof

/-! ### The operand formats of an operation word -/

/-- Format Z: the opcode alone (R74). -/
def formatZ (i : Instr) : List Byte → Option Instr
  | [] => some i
  | _ => none

/-- Format B: one operand byte (R75). -/
def formatB (k : Byte → Instr) : List Byte → Option Instr
  | [a] => some (k a)
  | _ => none

/-- Format P: two operand bytes, left then right (R75). -/
def formatP (k : Byte → Byte → Instr) : List Byte → Option Instr
  | [l, r] => some (k l r)
  | _ => none

/-- Format V: a count and exactly that many bytes (R76). -/
def formatV (k : List Byte → Instr) : List Byte → Option Instr
  | n :: d => if d.length = n.toNat then some (k d) else none
  | [] => none

/-- Format J: eight i16, axis 0 first (R77). -/
def formatJ (k : Axes → Instr) : List Byte → Option Instr
  | [l0, h0, l1, h1, l2, h2, l3, h3, l4, h4, l5, h5, l6, h6, l7, h7] =>
    some (k ⟨i16OfBytes l0 h0, i16OfBytes l1 h1, i16OfBytes l2 h2, i16OfBytes l3 h3,
      i16OfBytes l4 h4, i16OfBytes l5 h5, i16OfBytes l6 h6, i16OfBytes l7 h7⟩)
  | _ => none

/-- Format F: two floating operands, X first (R77). -/
def formatF (k : Word32 → Word32 → Instr) : List Byte → Option Instr
  | [x0, x1, x2, x3, y0, y1, y2, y3] =>
    some (k (word32OfBytes x0 x1 x2 x3) (word32OfBytes y0 y1 y2 y3))
  | _ => none

/-- The operation a word of the event port stands for, if it is legal (R73, R81). -/
def decodeOperation : List Byte → Option Instr
  | [] => none
  | op :: args =>
    if op = opRxb then formatB .rxb args
    else if op = opRxd then formatV .rxd args
    else if op = opRxe then formatZ .rxe args
    else if op = opTick then formatZ .tick args
    else if op = opLnko then formatZ .lnko args
    else if op = opLnkc then formatZ .lnkc args
    else if op = opTxr then formatB .txr args
    else if op = opJoy then formatJ .joy args
    else if op = opTdev then formatF .tdev args
    else if op = opCdpd then formatF .cdpd args
    else if op = opEpwr then formatP .epwr args
    else if op = opShot then formatB .shot args
    else if op = opTsta then formatB .tsta args
    else if op = opPubp then formatZ .pubp args
    else if op = opRst then formatZ .rst args
    else none

/-- A word of the event port: an operation, or ILLEGAL (R81, 46_system.md R153). -/
def decodeEvent (word : List Byte) : Instr :=
  match decodeOperation word with
  | some i => i
  | none => .illegal word

/-- An inbound frame on the RX stream (R63). -/
def decodeTelemetryFrame : List Byte → Option Instr
  | [m0, m1, y0, y1, p0, p1, r0, r1] =>
    if m0 = Config.marker0 ∧ m1 = Config.marker1 then
      some (.frameTlm (i16OfBytes y0 y1) (i16OfBytes p0 p1) (i16OfBytes r0 r1))
    else none
  | _ => none

/-- An outbound frame on the TX stream (R64). -/
def decodeCommandFrame : List Byte → Option Instr
  | [m0, m1, s, l0, l1, r0, r1, t0, t1] =>
    if m0 = Config.marker0 ∧ m1 = Config.marker1 then
      some (.frameCmd s (i16OfBytes l0 l1) (i16OfBytes r0 r1) (i16OfBytes t0 t1))
    else none
  | _ => none

/-- The payload of a TXF record: 9 bytes (R78). -/
def payloadTxf (frame : List Byte) : Option Instr :=
  if frame.length = Config.txFrameLen then some (.txf frame) else none

/-- The payload of a YPR record: laid out as the inbound frame body (R78). -/
def payloadYpr : List Byte → Option Instr
  | [y0, y1, p0, p1, r0, r1] =>
    some (.ypr (i16OfBytes y0 y1) (i16OfBytes p0 p1) (i16OfBytes r0 r1))
  | _ => none

/-- The payload of an INFL record (R79). -/
def payloadInfl : List Byte → Option Instr
  | [s, l0, l1, r0, r1, t0, t1, g0, g1, c0, c1, tag] =>
    some (.infl s (i16OfBytes l0 l1) (i16OfBytes r0 r1) (i16OfBytes t0 t1) (i16OfBytes g0 g1)
      (i16OfBytes c0 c1) tag)
  | _ => none

/-- An output record on the output port (R78 to R80): told by its code byte and its length. -/
def decodeRecord : List Byte → Option Instr
  | [] => none
  | code :: payload =>
    if code = recTxf then payloadTxf payload
    else if code = recYpr then payloadYpr payload
    else if code = recStat then formatB .stat payload
    else if code = recInfl then payloadInfl payload
    else if code = recLog then formatB .log payload
    else none

/-- The row of the opcode table the bytes of a space are, or why they are none. -/
def decode (space : Space) (bytes : List Byte) : Except DecodeError Instr :=
  match space with
  | .event => .ok (decodeEvent bytes)
  | .rx =>
    match decodeTelemetryFrame bytes with
    | some i => .ok i
    | none => .error .notTelemetryFrame
  | .tx =>
    match decodeCommandFrame bytes with
    | some i => .ok i
    | none => .error .notCommandFrame
  | .out =>
    match decodeRecord bytes with
    | some i => .ok i
    | none => .error .notRecord

/-- The instruction the block executes for what stands in a space. Bytes of the RX stream that are no
frame of their own are received like any others: the stream has no unit but the byte, and how it is cut
does not matter (20_memory.md R49, 41_frame_sync.md R94, R99). Bytes of the TX stream or the output port
that are no row are an illegal word: the event port is the one port the host presents words on, and
what is no operation there is ILLEGAL (R72, R81; DESIGN CHOICE, unsafe: log entry 6). -/
def decodeItem (item : Item) : Instr :=
  match decode item.space item.bytes with
  | .ok i => i
  | .error .notTelemetryFrame => .rxd item.bytes
  | .error .notCommandFrame => .illegal item.bytes
  | .error .notRecord => .illegal item.bytes

/-! ### The encoder -/

/-- The space a row of the opcode table stands in, by the row's `kind` (spec/INDEX.md). -/
def Instr.space : Instr → Space
  | .rxb _ | .rxd _ | .rxe | .tick | .lnko | .lnkc | .txr _ | .joy _ | .tdev _ _ | .cdpd _ _
  | .epwr _ _ | .shot _ | .tsta _ | .pubp | .rst | .illegal _ => .event
  | .frameTlm _ _ _ => .rx
  | .frameCmd _ _ _ _ => .tx
  | .txf _ | .ypr _ _ _ | .stat _ | .infl _ _ _ _ _ _ _ | .log _ => .out

/-- The sixteen operand bytes of a JOY word (R77). -/
def axesBytes (a : Axes) : List Byte :=
  i16Bytes a.a0 ++ i16Bytes a.a1 ++ i16Bytes a.a2 ++ i16Bytes a.a3 ++
  i16Bytes a.a4 ++ i16Bytes a.a5 ++ i16Bytes a.a6 ++ i16Bytes a.a7

/-- The bytes of an output record, code first (R78, R79). -/
def Record.bytes : Record → List Byte
  | .txf frame => recTxf :: frame
  | .ypr yaw pitch roll => recYpr :: (i16Bytes yaw ++ i16Bytes pitch ++ i16Bytes roll)
  | .stat s => [recStat, s]
  | .infl shot l r t g c tag =>
    recInfl :: shot ::
      (i16Bytes l ++ i16Bytes r ++ i16Bytes t ++ i16Bytes g ++ i16Bytes c ++ [tag])
  | .log code => [recLog, code]

/-- The bytes of an instruction, byte 0 first, in its own space (R63, R64, R73 to R79). -/
def encode : Instr → List Byte
  | .rxb b => [opRxb, b]
  | .rxd d => opRxd :: BitVec.ofNat 8 d.length :: d
  | .rxe => [opRxe]
  | .tick => [opTick]
  | .lnko => [opLnko]
  | .lnkc => [opLnkc]
  | .txr w => [opTxr, w]
  | .joy a => opJoy :: axesBytes a
  | .tdev dx dy => opTdev :: (word32Bytes dx ++ word32Bytes dy)
  | .cdpd sx sy => opCdpd :: (word32Bytes sx ++ word32Bytes sy)
  | .epwr pl pr => [opEpwr, pl, pr]
  | .shot f => [opShot, f]
  | .tsta t => [opTsta, t]
  | .pubp => [opPubp]
  | .rst => [opRst]
  | .illegal word => word
  | .frameTlm yaw pitch roll =>
    Config.marker ++ (i16Bytes yaw ++ i16Bytes pitch ++ i16Bytes roll)
  | .frameCmd shot l r t => Config.marker ++ (shot :: (i16Bytes l ++ i16Bytes r ++ i16Bytes t))
  | .txf frame => (Record.txf frame).bytes
  | .ypr yaw pitch roll => (Record.ypr yaw pitch roll).bytes
  | .stat s => (Record.stat s).bytes
  | .infl shot l r t g c tag => (Record.infl shot l r t g c tag).bytes
  | .log code => (Record.log code).bytes

/-! ### The opcode table's bit numbering (log entry 5) -/

/-- The space the first two bytes of a table word point to: the marker to a wire frame (the outbound
one where all its 72 bits are given, else the inbound one), a record code of R78 to the output port,
anything else to the event port. DESIGN CHOICE, unsafe: log entry 5. -/
def tableSpace (nbits : Nat) (b0 b1 : Byte) : Space :=
  if b0 = Config.marker0 ∧ b1 = Config.marker1 then
    if 8 * Config.txFrameLen ≤ nbits then .tx else .rx
  else if (recLength b0).isSome then .out
  else .event

/-- How many bytes the row of that first byte has (R73, R80, R63, R64); 0 where no row has it. -/
def tableLength (space : Space) (b0 b1 : Byte) : Nat :=
  match space with
  | .event => (opLength b0 [b1]).getD 0
  | .rx => Config.rxFrameLen
  | .tx => Config.txFrameLen
  | .out => (recLength b0).getD 0

/-- The item whose bits are `w` in the table's numbering: byte k is bits `8k + 7 .. 8k`. Its length is
the row's, or the given bits' where they are more; every bit above `nbits` is 0. -/
def tableItem (nbits w : Nat) : Item :=
  let bits := w % 2 ^ nbits
  let b0 := BitVec.ofNat 8 bits
  let b1 := BitVec.ofNat 8 (bits / 256)
  let space := tableSpace nbits b0 b1
  ⟨space, bytesOfNat (max ((nbits + 7) / 8) (tableLength space b0 b1)) bits⟩

/-- The instruction the decoder reads from a table word: the one `step` runs for it. No word is refused. -/
def decodeTableWord (nbits w : Nat) : Option Instr := some (decodeItem (tableItem nbits w))

end Sys2Proof
end

