-- ==== Sys2Proof/Machine/Fetch.lean ====
section
/-! DEFINITION. Taking the next item from the host (spec/30_encoding.md R72): what `step` executes, and
where `withFetchWord` puts it. -/

namespace Sys2Proof.Machine

/-- The item the host presents next, and the state in which it is executed: the host no longer holds
it (10_state.md R21, log entry 1). -/
def fetch (s : State) : Option (Item × State) :=
  match s.pending with
  | [] => none
  | item :: rest => some (item, { s with pending := rest })

/-- The state in which the host presents `item` next, before all it held. -/
def State.present (s : State) (item : Item) : State := { s with pending := item :: s.pending }

end Sys2Proof.Machine
end

