-- ==== Sys2Proof/Machine/Step.lean ====
section
/-! DEFINITION. One step: the block takes the item the host presents, decodes it and executes it to
completion (spec/30_encoding.md R72, 00_scope.md R5, R16). -/

namespace Sys2Proof.Machine

/-- One step. With nothing presented the block is idle and keeps all its state (60_exceptions.md
R174). -/
def step (s : State) : Host.Outcome State Fault Refusal :=
  match fetch s with
  | none => .next s
  | some (item, s') => exec (decodeItem item) s'

/-- `s` with the instruction of a table word presented next (log entry 5): the host's act of
presenting it, and nothing else. -/
def State.withFetchWord (s : State) (nbits w : Nat) : State := s.present (tableItem nbits w)

end Sys2Proof.Machine
end

