-- ==== Sys2Proof/Safety.lean ====
section
/-! DEFINITION. What holds of the block between operations (spec/10_state.md R20, R25, R28, R29, R36, R37,
42_watchdog.md R112), and the runs of operations statements speak of (00_scope.md R16). -/

namespace Sys2Proof

/-- A record that announces a link state. -/
def Record.isStat : Record → Bool
  | .stat _ => true
  | _ => false

/-- A record that carries telemetry. -/
def Record.isYpr : Record → Bool
  | .ypr _ _ _ => true
  | _ => false

end Sys2Proof

namespace Sys2Proof.Machine

/-- 10_state.md R25: Seeking with at most one byte held, or Locked with two to seven bytes that begin
with the marker. -/
abbrev SyncInv (s : State) : Prop :=
  (s.syncst = .seeking ∧ s.buf.length ≤ 1) ∨
  (s.syncst = .locked ∧ 2 ≤ s.buf.length ∧ s.buf.length ≤ 7 ∧ s.buf.take 2 = [0x55, 0x55])

/-- A command value in -32767..32767 (10_state.md R28). -/
abbrev InCmdRange (v : I16) : Prop := -32767 ≤ v.toInt ∧ v.toInt ≤ 32767

/-- The range invariant of CMD (R27, R28). -/
abbrev CmdInv (c : Command) : Prop :=
  (c.shot = 0 ∨ c.shot = 1) ∧ InCmdRange c.leftEngine ∧ InCmdRange c.rightEngine ∧
  InCmdRange c.towerH ∧ InCmdRange c.gunV ∧ c.cameraV = c.gunV

/-- The legal values of the counters and ceilings (R20: S3, S4, S9, S10). -/
abbrev RangeInv (s : State) : Prop :=
  s.wdcnt ≤ 500 ∧ s.txcnt ≤ 49 ∧ s.liml ≤ 32767 ∧ s.limr ≤ 32767

/-- 42_watchdog.md R112: the timer is armed exactly while the link is online. -/
abbrev WatchdogInv (s : State) : Prop := 0 < s.wdcnt ↔ s.link = true

/-- 10_state.md R29: TAG and MODE agree. -/
abbrev TagInv (s : State) : Prop := s.cmd.tag = .position ↔ s.mode = .track

/-- A rational that a finite binary32 word denotes (R36, R37). -/
def FiniteBinary32 (q : Rat) : Prop := ∃ w : Word32, floatOperand w = some q

/-- DEV and CAL hold finite binary32 values (R36, R37). -/
def FloatInv (s : State) : Prop :=
  FiniteBinary32 s.dev.x ∧ FiniteBinary32 s.dev.y ∧ FiniteBinary32 s.cal.x ∧ FiniteBinary32 s.cal.y

/-- What the spec says holds of every state between operations. -/
structure Inv (s : State) : Prop where
  /-- R25. -/
  sync : SyncInv s
  /-- R28. -/
  cmd : CmdInv s.cmd
  /-- R20. -/
  range : RangeInv s
  /-- R112. -/
  watchdog : WatchdogInv s
  /-- R29. -/
  tag : TagInv s
  /-- R36, R37. -/
  float : FloatInv s

/-- The state after a sequence of instructions, each run to completion before the next (00_scope.md
R5, R16); it stops with the first that does not answer a next state. -/
def execAll : List Instr → State → Host.Outcome State Fault Refusal
  | [], s => .next s
  | i :: rest, s =>
    match exec i s with
    | .next t => execAll rest t
    | .fault f => .fault f
    | .refused r => .refused r

/-- No two adjacent bytes are both 0x55 (41_frame_sync.md R100, condition i). -/
def NoMarkerPair (g : List Byte) : Prop := ∀ k : Nat, ¬ (g[k]? = some 0x55 ∧ g[k + 1]? = some 0x55)

end Sys2Proof.Machine
end

