-- ==== Sys2Proof/Certificates/Slice0/Obligations.lean ====
section
/-! DEFINITION. The statements for the provers, each from the numbered rules of spec/ its docstring
names. A statement that rests on a choice of the model's says so and names the log entry. In all of them
what an instruction emits is what it appends to `outPort`, and what the host presents is the head of
`pending`: the model's form of the two ports (log entries 2 and 1). -/

open Sys2Proof Sys2Proof.Machine

/-! ### Encoding and decoding -/

/-- Every well-formed instruction decodes from its own bytes, in its own space, at every value of every
operand (30_encoding.md R63, R64, R73 to R79). -/
def Obligations.DecodeOfEncodeIsTheInstruction : Prop :=
  ∀ i : Instr, i.wf = true → decode i.space (encode i) = .ok i

/-- The other direction on the event port: every word, legal or not, is the encoding of what it decodes
to, so no two words mean the same instruction (30_encoding.md R72 to R77, R81). -/
def Obligations.EncodeOfDecodedWordIsTheWord : Prop :=
  ∀ w : List Byte, (decodeEvent w).space = .event ∧ encode (decodeEvent w) = w

/-- A word of the event port is an operation exactly when its opcode is in R73 and its length is the one
R73 gives; every other word is ILLEGAL, and executing it changes nothing and emits LOG(0x05)
(30_encoding.md R81, 46_system.md R153). That the step takes the word from `pending` and the record goes
to `outPort` is the model's (log entries 1 and 2). -/
def Obligations.IllegalWordsAreRefusedWithALogRecord : Prop :=
  ∀ w : List Byte,
    ((decodeEvent w).isOperation = legalWord w) ∧
    (∀ s : State, exec (.illegal w) s = .next { s with outPort := s.outPort ++ [.log 0x05] }) ∧
    (legalWord w = false → decodeEvent w = .illegal w ∧
      ∀ s : State, step (s.present ⟨.event, w⟩) = .next { s with outPort := s.outPort ++ [.log 0x05] })

/-- Which words are legal, by length, for each opcode of R73, and no other opcode (30_encoding.md R73,
R81). -/
def Obligations.LegalWordsAreThoseOfTheOperationList : Prop :=
  ∀ w : List Byte, legalWord w = true ↔
    (∃ args : List Byte, args.length = 0 ∧
      (w = 0x03 :: args ∨ w = 0x04 :: args ∨ w = 0x05 :: args ∨ w = 0x06 :: args ∨ w = 0x16 :: args ∨
       w = 0x7F :: args)) ∨
    (∃ args : List Byte, args.length = 1 ∧
      (w = 0x01 :: args ∨ w = 0x07 :: args ∨ w = 0x14 :: args ∨ w = 0x15 :: args)) ∨
    (∃ args : List Byte, args.length = 2 ∧ w = 0x13 :: args) ∨
    (∃ args : List Byte, args.length = 8 ∧ (w = 0x11 :: args ∨ w = 0x12 :: args)) ∨
    (∃ args : List Byte, args.length = 16 ∧ w = 0x10 :: args) ∨
    (∃ (n : Byte) (d : List Byte), d.length = n.toNat ∧ w = 0x02 :: n :: d)

/-- Words written out from the encoding tables decode to the instruction they stand for (worked
examples of 30_encoding.md R84, 44_aggregator.md R141, 41_frame_sync.md R96, 46_system.md R153). -/
def Obligations.SampleWordsDecode : Prop :=
  decodeEvent [0x01, 0x55] = .rxb 0x55 ∧
  decodeEvent [0x02, 0x02, 0x12, 0x34] = .rxd [0x12, 0x34] ∧
  decodeEvent [0x04] = .tick ∧
  decodeEvent [0x10, 0x88, 0x13, 0xE0, 0xB1, 0, 0, 0x07, 0, 0xF7, 0xFF, 0, 0, 0, 0, 0x01, 0x80] =
    .joy ⟨5000, 0xB1E0, 0, 7, 0xFFF7, 0, 0, 0x8001⟩ ∧
  decodeEvent [0x12, 0x00, 0x00, 0xA0, 0x41, 0x00, 0x00, 0x78, 0x41] = .cdpd 0x41A00000 0x41780000 ∧
  decodeEvent [0x13, 0x32, 0x4B] = .epwr 50 75 ∧
  decodeEvent [0x04, 0x00] = .illegal [0x04, 0x00]

/-- The bytes of the two wire frames and the five records, field by field in table order: R63, R64, R78,
R79; and the record lengths of R80. -/
def Obligations.FrameAndRecordLayouts : Prop :=
  (∀ y p r : I16, encode (.frameTlm y p r) =
    [0x55, 0x55, lo8 y, hi8 y, lo8 p, hi8 p, lo8 r, hi8 r]) ∧
  (∀ (f : Byte) (l r t : I16), encode (.frameCmd f l r t) =
    [0x55, 0x55, f, lo8 l, hi8 l, lo8 r, hi8 r, lo8 t, hi8 t]) ∧
  (∀ y p r : I16, (Record.ypr y p r).bytes = [0x81, lo8 y, hi8 y, lo8 p, hi8 p, lo8 r, hi8 r]) ∧
  (∀ b : Byte, (Record.stat b).bytes = [0x82, b]) ∧
  (∀ (f g : Byte) (l r t u c : I16), (Record.infl f l r t u c g).bytes =
    [0x83, f, lo8 l, hi8 l, lo8 r, hi8 r, lo8 t, hi8 t, lo8 u, hi8 u, lo8 c, hi8 c, g]) ∧
  (∀ b : Byte, (Record.log b).bytes = [0x84, b]) ∧
  (∀ f : List Byte, (Record.txf f).wf = true →
    (Record.txf f).bytes = 0x80 :: f ∧ (Record.txf f).bytes.length = 10)

/-- A 16-bit field at bytes `b_lo`, `b_hi` has the value `sext_16(b_hi * 256 + b_lo)`, and is sent as
`lo8`, then `hi8` (30_encoding.md R67, 00_scope.md R11). -/
def Obligations.SixteenBitFieldsAreLittleEndianTwosComplement : Prop :=
  (∀ lo hi : Byte,
    (i16OfBytes lo hi).toInt =
      (let w : Int := hi.toNat * 256 + lo.toNat
       if w < 32768 then w else w - 65536) ∧
    i16Bytes (i16OfBytes lo hi) = [lo, hi]) ∧
  (∀ v : I16, i16OfBytes (lo8 v) (hi8 v) = v)

/-- The value of a floating operand, all 2^32 words: NONFINITE at exponent field 255, else the rational
of R71 (30_encoding.md R71). -/
def Obligations.FloatingOperandIsItsBinary32Value : Prop :=
  ∀ w : Word32,
    let s : Rat := if w.getLsbD 31 then -1 else 1
    let e : Nat := w.toNat / 2 ^ 23 % 256
    let f : Rat := ((w.toNat % 2 ^ 23 : Nat) : Rat)
    floatOperand w =
      if e = 255 then none
      else if e = 0 then some (s * f * (2 : Rat) ^ (-149 : Int))
      else some (s * (2 ^ 23 + f) * (2 : Rat) ^ ((e : Int) - 150))

/-- The codec's round trips, in both directions and for both layouts (40_codec.md R92). -/
def Obligations.CodecRoundTrips : Prop :=
  (∀ y p r : I16, decTlm (encTlm y p r) = some ⟨y, p, r⟩) ∧
  (∀ b : List Byte, b.length = 6 → ∃ t, decTlm b = some t ∧ encTlm t.yaw t.pitch t.roll = b) ∧
  (∀ (f : Byte) (l r t : I16), decCmd (encCmd f l r t) = some ⟨f, l, r, t⟩) ∧
  (∀ b : List Byte, b.length = 7 →
    ∃ c, decCmd b = some c ∧ encCmd c.shot c.leftEngine c.rightEngine c.towerH = b)

/-- DEG (40_codec.md R91): its values at the ends of the scale, and injectivity, which is why the raw
YPR record loses nothing. -/
def Obligations.DegreesLoseNothing : Prop :=
  (∀ v : I16, deg v = (v.toInt : Rat) * 360 / 32767) ∧ Function.Injective deg ∧
  deg 0x7FFF = 360 ∧ deg 0x8001 = -360 ∧ deg 0 = 0 ∧ deg 0x4000 = 5898240 / 32767 ∧
  deg 0x8000 = -11796480 / 32767

/-! ### The step -/

/-- A step runs the instruction the presented bytes decode to, in the state in which the host no longer
holds them (30_encoding.md R72; the queue `pending` is the model's, log entry 1). -/
def Obligations.StepRunsTheDecodedInstruction : Prop :=
  ∀ (s : State) (item : Item) (rest : List Item) (i : Instr),
    s.pending = item :: rest → decode item.space item.bytes = .ok i → i.wf = true →
    step s = exec i { s with pending := rest }

/-- With nothing presented the block is idle and keeps all its state (60_exceptions.md R174; that a step
is then taken at all is the model's, log entry 1). -/
def Obligations.IdleStepKeepsTheState : Prop :=
  ∀ s : State, s.pending = [] → step s = .next s

/-- Nothing stops the block: every instruction, at every operand, in every state, answers a next state
(00_scope.md R6, 60_exceptions.md R175), and so does every step, whatever is presented (how it is presented is
the model's, log entry 1). -/
def Obligations.NothingStopsTheBlock : Prop :=
  (∀ (i : Instr) (s : State), ∃ t, exec i s = .next t) ∧ (∀ s : State, ∃ t, step s = .next t)

/-- What is presented has its effect, whatever its bytes. On the event port it is executed as the word it
decodes to, legal or not (30_encoding.md R72, R81). On the RX stream the bytes are received, a whole frame or
not (20_memory.md R49, 41_frame_sync.md R94). On the TX stream and the output port, where the block takes no
input (R45), bytes that are no row of the table are an illegal word: LOG(0x05) and no other change, which is
the model's choice (log entry 6); `pending` is the model's too (log entry 1). -/
def Obligations.WhateverIsPresentedHasItsEffect : Prop :=
  ∀ (s : State) (item : Item) (rest : List Item), s.pending = item :: rest →
    (item.space = .event → step s = exec (decodeEvent item.bytes) { s with pending := rest }) ∧
    (item.space = .rx → step s = exec (.rxd item.bytes) { s with pending := rest }) ∧
    (item.space = .tx ∨ item.space = .out → (∃ e, decode item.space item.bytes = .error e) →
      step s = .next { s with pending := rest, outPort := s.outPort ++ [.log 0x05] })

/-! ### Frame Synchronizer -/

/-- RXB, byte by byte: the corner cases of 41_frame_sync.md R96 in every state R25 allows, and all that
each leaves unchanged. -/
def Obligations.RxbIsAByteAutomaton : Prop :=
  ∀ (b : Byte) (s : State),
    (s.syncst = .seeking → s.buf = [] → exec (.rxb b) s = .next { s with buf := [b] }) ∧
    (∀ h, s.syncst = .seeking → s.buf = [h] → (h = 0x55 ∧ b = 0x55) →
      exec (.rxb b) s = .next { s with buf := [0x55, 0x55], syncst := .locked }) ∧
    (∀ h, s.syncst = .seeking → s.buf = [h] → ¬ (h = 0x55 ∧ b = 0x55) →
      exec (.rxb b) s = .next { s with buf := [b] }) ∧
    (s.syncst = .locked → 2 ≤ s.buf.length → s.buf.length ≤ 6 →
      exec (.rxb b) s = .next { s with buf := s.buf ++ [b] }) ∧
    (∀ m0 m1 p0 p1 p2 p3 p4, s.syncst = .locked → s.buf = [m0, m1, p0, p1, p2, p3, p4] →
      exec (.rxb b) s = .next { s with
        buf := [], syncst := .seeking, wdcnt := 500, link := true
        outPort := s.outPort ++ (if s.link = true then [] else [.stat 0x01]) ++
          [.ypr (i16OfBytes p0 p1) (i16OfBytes p2 p3) (i16OfBytes p4 b)] })

/-- Chunking does not matter (41_frame_sync.md R99): RXD of a byte string is the RXB of each of its bytes
in turn, and the RXD of its parts, however it is cut, from every state R25 allows. -/
def Obligations.RxdDoesNotDependOnChunking : Prop :=
  ∀ s : State, SyncInv s →
    (∀ d : List Byte, exec (.rxd d) s = execAll (d.map .rxb) s) ∧
    (∀ parts : List (List Byte), exec (.rxd parts.flatten) s = execAll (parts.map .rxd) s)

/-- RXD from every state R25 allows (41_frame_sync.md R97): it completes; it writes BUF, SYNCST, WDCNT, LINK
and emits only; R25 holds again; without a frame the watchdog and the output port are as before, with
records the timer is at 500, the link online, and the records are STAT(1) if the link was offline, then
one or more YPR, at most (7 + n) / 8. Which frames they are is RxdDecodesTheStreamFrameByFrame. -/
def Obligations.RxdAppendsAtMostOneStatThenYprs : Prop :=
  ∀ (d : List Byte) (s : State), SyncInv s →
    ∃ t rs, exec (.rxd d) s = .next t ∧ SyncInv t ∧
      t = { s with buf := t.buf, syncst := t.syncst, wdcnt := t.wdcnt, link := t.link,
                   outPort := s.outPort ++ rs } ∧
      ((rs = [] ∧ t.wdcnt = s.wdcnt ∧ t.link = s.link) ∨
       (t.wdcnt = 500 ∧ t.link = true ∧ ∃ ys : List Record,
         rs = (if s.link = true then [] else [.stat 0x01]) ++ ys ∧ (∀ y ∈ ys, y.isYpr = true) ∧
         1 ≤ ys.length ∧ 8 * ys.length ≤ 7 + d.length))

/-- RXD decodes the stream frame by frame (41_frame_sync.md R95, R97), from every state R25 allows. The bytes
held and the bytes received, in order, are: for each frame a gap, the marker and the frame's six payload
bytes; then a last gap; then the bytes left in BUF. No marker pair lies within a gap, nor begins in it with
its second byte at the start of what follows, so each marker is the first one there is. There is one YPR for
each frame, in stream order, preceded by one STAT(1) if there is a frame and the link was offline. -/
def Obligations.RxdDecodesTheStreamFrameByFrame : Prop :=
  ∀ (d : List Byte) (s : State), SyncInv s →
    ∃ (t : State) (frames : List (List Byte × I16 × I16 × I16)) (gap : List Byte),
      exec (.rxd d) s = .next t ∧ SyncInv t ∧
      s.buf ++ d =
        (frames.flatMap fun f => f.1 ++ [0x55, 0x55] ++ encTlm f.2.1 f.2.2.1 f.2.2.2) ++ gap ++ t.buf ∧
      (∀ f ∈ frames, NoMarkerPair (f.1 ++ [0x55])) ∧ NoMarkerPair (gap ++ t.buf.take 1) ∧
      8 * frames.length ≤ 7 + d.length ∧
      t = { s with
        buf := t.buf, syncst := t.syncst
        wdcnt := if frames = [] then s.wdcnt else 500
        link := if frames = [] then s.link else true
        outPort := s.outPort ++ (if frames = [] ∨ s.link = true then [] else [.stat 0x01]) ++
          frames.map fun f => .ypr f.2.1 f.2.2.1 f.2.2.2 }

/-- RXD with count 0 changes nothing and emits nothing (41_frame_sync.md R97, 46_system.md R154). -/
def Obligations.RxdOfNoBytesChangesNothing : Prop :=
  ∀ s : State, SyncInv s → exec (.rxd []) s = .next s

/-- Resynchronisation (41_frame_sync.md R100): after garbage without a marker pair whose last byte is not
0x55, the frame that follows is the one YPR emitted; if the garbage ends in 0x55 the block locks one byte
early, decodes 0x55 and the first five payload bytes, and is left with the sixth. -/
def Obligations.ResynchronisationAfterGarbage : Prop :=
  ∀ (g : List Byte) (p0 p1 p2 p3 p4 p5 : Byte) (s : State),
    s.syncst = .seeking → s.buf = [] → NoMarkerPair g →
    (g.getLast? ≠ some 0x55 →
      exec (.rxd (g ++ [0x55, 0x55, p0, p1, p2, p3, p4, p5])) s = .next { s with
        wdcnt := 500, link := true
        outPort := s.outPort ++ (if s.link = true then [] else [.stat 0x01]) ++
          [.ypr (i16OfBytes p0 p1) (i16OfBytes p2 p3) (i16OfBytes p4 p5)] }) ∧
    (g.getLast? = some 0x55 →
      exec (.rxd (g ++ [0x55, 0x55, p0, p1, p2, p3, p4, p5])) s = .next { s with
        buf := [p5], wdcnt := 500, link := true
        outPort := s.outPort ++ (if s.link = true then [] else [.stat 0x01]) ++
          [.ypr (i16OfBytes 0x55 p0) (i16OfBytes p1 p2) (i16OfBytes p3 p4)] })

/-- Garbage without a marker pair yields nothing and leaves its last byte (41_frame_sync.md R95, R101): the
source's testable property 2. -/
def Obligations.GarbageIsSilentlyAbsorbed : Prop :=
  ∀ (g : List Byte) (s : State), s.syncst = .seeking → s.buf = [] → NoMarkerPair g →
    exec (.rxd g) s = .next { s with buf := g.drop (g.length - 1) }

/-- An inbound wire frame reaching an aligned synchronizer is published and arms the watchdog, whatever its
payload (41_frame_sync.md R95, R102, R103); that FRAME.TLM is an instruction of its own, equal to RXD of
its bytes, is the model's choice (log entries 3 and 4). -/
def Obligations.AlignedTelemetryFrameIsPublished : Prop :=
  ∀ (y p r : I16) (s : State),
    exec (.frameTlm y p r) s = exec (.rxd (encode (.frameTlm y p r))) s ∧
    (s.syncst = .seeking → s.buf = [] →
      exec (.frameTlm y p r) s = .next { s with
        wdcnt := 500, link := true
        outPort := s.outPort ++ (if s.link = true then [] else [.stat 0x01]) ++ [.ypr y p r] })

/-- RXE emits LOG(E_RDFAIL) and changes no state (41_frame_sync.md R98, 60_exceptions.md R158). -/
def Obligations.ReadFailureIsOnlyLogged : Prop :=
  ∀ s : State, exec .rxe s = .next { s with outPort := s.outPort ++ [.log 0x01] }

/-! ### Watchdog and transmitter -/

/-- TICK (42_watchdog.md R108, R109, 43_transmitter.md R115, R116): the watchdog step, then the send step in
the state it leaves; the frame sent is the live CMD. -/
def Obligations.TickRunsWatchdogThenSend : Prop :=
  ∀ s : State,
    let link' := if s.wdcnt = 1 then false else s.link
    exec .tick s = .next { s with
      wdcnt := if s.wdcnt = 0 then 0 else s.wdcnt - 1
      link := link'
      txcnt := if s.txcnt + 1 = 50 then 0 else s.txcnt + 1
      outPort := s.outPort ++
        (if s.wdcnt = 1 ∧ s.link = true then [.stat 0x00] else []) ++
        (if s.txcnt + 1 = 50 ∧ s.lnkopen = true ∧ link' = true then
          [.txf [0x55, 0x55, s.cmd.shot, lo8 s.cmd.leftEngine, hi8 s.cmd.leftEngine,
            lo8 s.cmd.rightEngine, hi8 s.cmd.rightEngine, lo8 s.cmd.towerH, hi8 s.cmd.towerH]]
         else []) }

/-- Expiry (42_watchdog.md R111, R112): from an online state with WDCNT = w, k TICK leave the link online with
WDCNT = w - k and announce nothing while k < w, and from the w-th on the link is offline, WDCNT is 0 and
STAT(0) has been announced exactly once. After a frame w is 500 (R107). -/
def Obligations.WatchdogExpiresOnceAtItsCount : Prop :=
  ∀ (s : State) (k : Nat), s.link = true → 0 < s.wdcnt →
    ∃ t rs, execAll (List.replicate k .tick) s = .next t ∧ t.outPort = s.outPort ++ rs ∧
      (k < s.wdcnt → t.link = true ∧ t.wdcnt = s.wdcnt - k ∧ rs.filter Record.isStat = []) ∧
      (s.wdcnt ≤ k → t.link = false ∧ t.wdcnt = 0 ∧ rs.filter Record.isStat = [.stat 0x00])

/-- Edge-triggered liveness (42_watchdog.md R110, the source's testable property 3): from an aligned offline
state, one or more frames with fewer than 500 TICK after each announce STAT(1) once, before anything
else, and never STAT(0). -/
def Obligations.ConsecutiveFramesAnnounceOnlineOnce : Prop :=
  ∀ (frames : List (I16 × I16 × I16 × Nat)) (s : State),
    s.syncst = .seeking → s.buf = [] → s.link = false → frames ≠ [] →
    (∀ f ∈ frames, f.2.2.2 < 500) →
    ∃ t rs,
      execAll (frames.flatMap fun f =>
        .rxd ([0x55, 0x55] ++ encTlm f.1 f.2.1 f.2.2.1) :: List.replicate f.2.2.2 .tick) s = .next t ∧
      t.link = true ∧ t.outPort = s.outPort ++ rs ∧ rs.head? = some (.stat 0x01) ∧
      rs.filter Record.isStat = [.stat 0x01]

/-- Bounded staleness (43_transmitter.md R115, R116, R122): while open and online with enough watchdog left,
the TICK that brings the send timer to 50 sends CMD as it is, once, and no earlier TICK sends. -/
def Obligations.CommandIsSentAtTheNextSendTick : Prop :=
  ∀ s : State, s.lnkopen = true → s.link = true → s.txcnt ≤ 49 → 50 - s.txcnt < s.wdcnt →
    execAll (List.replicate (49 - s.txcnt) .tick) s =
      .next { s with txcnt := 49, wdcnt := s.wdcnt - (49 - s.txcnt) } ∧
    execAll (List.replicate (50 - s.txcnt) .tick) s =
      .next { s with
        txcnt := 0, wdcnt := s.wdcnt - (50 - s.txcnt)
        outPort := s.outPort ++ [.txf ([0x55, 0x55] ++
          encCmd s.cmd.shot s.cmd.leftEngine s.cmd.rightEngine s.cmd.towerH)] }

/-- The TX stream (43_transmitter.md R116, R123, 20_memory.md R50): an operation or an illegal word emits a TXF
only if it is a TICK, at the fiftieth count, with the transport open and the link online before and
after, and the frame is that of CMD. -/
def Obligations.OnlyAnOnlineTickTransmits : Prop :=
  ∀ (i : Instr) (s t : State) (f : List Byte), i.space = .event → exec i s = .next t →
    ∃ rs, t.outPort = s.outPort ++ rs ∧
      (.txf f ∈ rs → i = .tick ∧ s.txcnt + 1 = 50 ∧ s.lnkopen = true ∧ s.link = true ∧ t.link = true ∧
        f = [0x55, 0x55] ++ encCmd s.cmd.shot s.cmd.leftEngine s.cmd.rightEngine s.cmd.towerH)

/-- The TX stream grows by whole nine-byte frames that begin with the marker, at most one an instruction
(20_memory.md R50). -/
def Obligations.TxStreamGrowsByWholeFrames : Prop :=
  ∀ (i : Instr) (s t : State), i.wf = true → exec i s = .next t →
    t.txStream = s.txStream ∨
    ∃ f : List Byte, t.txStream = s.txStream ++ f ∧ f.length = 9 ∧ f.take 2 = [0x55, 0x55]

/-- LNKO and LNKC write LNKOPEN and nothing else (43_transmitter.md R119, R120). -/
def Obligations.OpenAndCloseWriteOneBit : Prop :=
  ∀ s : State, exec .lnko s = .next { s with lnkopen := true } ∧
    exec .lnkc s = .next { s with lnkopen := false }

/-- TXR (43_transmitter.md R121, 60_exceptions.md R159, R160): 0xFF logs a failed write, 0..8 a short one,
9..254 nothing; no state changes. -/
def Obligations.WriteResultIsOnlyLogged : Prop :=
  ∀ (w : Byte) (s : State),
    (w = 0xFF → exec (.txr w) s = .next { s with outPort := s.outPort ++ [.log 0x02] }) ∧
    (w.toNat ≤ 8 → exec (.txr w) s = .next { s with outPort := s.outPort ++ [.log 0x03] }) ∧
    (9 ≤ w.toNat → w.toNat ≤ 254 → exec (.txr w) s = .next s)

/-! ### Mixer functions -/

/-- `trunc` is rounding toward zero as 00_scope.md R12 defines it. -/
def Obligations.TruncRoundsTowardZero : Prop :=
  ∀ q : Rat, trunc q = (SignType.sign q : Int) * ⌊|q|⌋

/-- Response shaping is the truncation of the exact rational (44_aggregator.md R125). -/
def Obligations.ShapeIsTheTruncatedCube : Prop :=
  ∀ (v : Int) (m : Nat), shape v m = trunc ((v : Rat) ^ 3 * m / 32767 ^ 3)

/-- Properties of shape (44_aggregator.md R126 a to e; 70_reset_and_hazards.md R190, R196): odd, monotone, its
values at the ends, its dead zone, and that a nominal operand never exceeds the ceiling. -/
def Obligations.ShapeIsOddMonotoneAndBounded : Prop :=
  (∀ (v : Int) (m : Nat), shape (-v) m = -shape v m) ∧
  (∀ (v w : Int) (m : Nat), v ≤ w → shape v m ≤ shape w m) ∧
  (∀ m : Nat, shape 0 m = 0 ∧ shape 32767 m = m ∧ shape (-32767) m = -m) ∧
  (∀ v : Int, shape v 0 = 0) ∧
  (∀ v : Int, |v| ≤ 1023 → shape v 32767 = 0) ∧ shape 1024 32767 = 1 ∧
  (∀ (v : Int) (m : Nat), |v| ^ 3 * m < 32767 ^ 3 → shape v m = 0) ∧
  (∀ (v : Int) (m : Nat), |v| ≤ 32767 → |shape v m| ≤ m)

/-- Clamping before or after truncating is the same (44_aggregator.md R145 f), and the clamped value fits
the register without wrapping (10_state.md R28). -/
def Obligations.ClampCommutesWithTrunc : Prop :=
  (∀ q : Rat, clampCmd (trunc q) = trunc (max (-32767) (min 32767 q))) ∧
  (∀ x : Int, (toCmd x).toInt = max (-32767) (min 32767 x))

/-! ### Aggregator and mode -/

/-- JOY (44_aggregator.md R128, R129, R131): both gates, both mixes, all eight last-seen values, and nothing
else. -/
def Obligations.JoyMixesAimAndDrive : Prop :=
  ∀ (a : Axes) (s : State),
    let clamp : Int → I16 := fun x => BitVec.ofInt 16 (max (-32767) (min 32767 x))
    let aims : Bool := decide (s.mode = .search ∧ (a.a2 ≠ s.joy.a2 ∨ a.a5 ≠ s.joy.a5))
    let drives : Bool := decide (a.a0 ≠ s.joy.a0 ∨ a.a1 ≠ s.joy.a1 ∨ a.a6 ≠ s.joy.a6 ∨ a.a7 ≠ s.joy.a7)
    let h := clamp (shape a.a2.toInt 32767)
    let v := clamp (shape (-a.a5.toInt) 32767)
    let effX : Int := if a.a6 ≠ 0 then a.a6.toInt else a.a0.toInt
    let effY : Int := if a.a7 ≠ 0 then a.a7.toInt else a.a1.toInt
    let speed := -effY
    let turn := effX
    let l := clamp (shape (speed - turn) s.liml)
    let r := clamp (shape (speed + turn) s.limr)
    exec (.joy a) s = .next { s with
      joy := a
      cmd := { s.cmd with
        towerH := if aims then h else s.cmd.towerH
        gunV := if aims then v else s.cmd.gunV
        cameraV := if aims then v else s.cmd.cameraV
        leftEngine := if drives then l else s.cmd.leftEngine
        rightEngine := if drives then r else s.cmd.rightEngine }
      dirty := s.dirty ||
        (aims && decide (h ≠ s.cmd.towerH ∨ v ≠ s.cmd.gunV ∨ v ≠ s.cmd.cameraV)) ||
        (drives && decide (l ≠ s.cmd.leftEngine ∨ r ≠ s.cmd.rightEngine)) }

/-- The same JOY word twice (44_aggregator.md R144 a, the source's testable property 5): the second changes
nothing, and with PUBP between or after there is no second publication. -/
def Obligations.RepeatedJoyIsAbsorbed : Prop :=
  ∀ (a : Axes) (s : State),
    execAll [.joy a, .joy a] s = execAll [.joy a] s ∧
    execAll [.joy a, .pubp, .joy a, .pubp] s = execAll [.joy a, .pubp] s ∧
    execAll [.joy a, .joy a, .pubp] s = execAll [.joy a, .pubp] s

/-- EPWR (44_aggregator.md R127, R133): the two ceilings, by the percent rule, and nothing else. -/
def Obligations.PowerLimitsAreStoredOnly : Prop :=
  ∀ (pl pr : Byte) (s : State),
    exec (.epwr pl pr) s = .next { s with
      liml := min pl.toNat 100 * 32767 / 100, limr := min pr.toNat 100 * 32767 / 100 } ∧
    min pl.toNat 100 * 32767 / 100 ≤ 32767 ∧ (100 ≤ pl.toNat → min pl.toNat 100 * 32767 / 100 = 32767)

/-- SHOT (44_aggregator.md R135, 30_encoding.md R69): the shot field, DIRTY always, nothing else. -/
def Obligations.ShotSetsTheFireFlag : Prop :=
  ∀ (f : Byte) (s : State),
    exec (.shot f) s = .next { s with
      cmd := { s.cmd with shot := if f = 0 then 0 else 1 }, dirty := true }

/-- TDEV (44_aggregator.md R130, R138, R139): refused whole for a non-finite operand; DEV stored in Search;
E_NUM after storing DEV in Track with a zero scale; the tracking recompute otherwise. -/
def Obligations.TrackerDeviationRecomputesInTrack : Prop :=
  ∀ (dx dy : Word32) (s : State),
    let clamp : Int → I16 := fun x => BitVec.ofInt 16 (max (-32767) (min 32767 x))
    ((floatOperand dx = none ∨ floatOperand dy = none) →
      exec (.tdev dx dy) s = .next { s with outPort := s.outPort ++ [.log 0x04] }) ∧
    (∀ x y : Rat, floatOperand dx = some x → floatOperand dy = some y →
      (s.mode = .search → exec (.tdev dx dy) s = .next { s with dev := ⟨x, y⟩ }) ∧
      (s.mode = .track → (s.cal.x = 0 ∨ s.cal.y = 0) →
        exec (.tdev dx dy) s =
          .next { s with dev := ⟨x, y⟩, outPort := s.outPort ++ [.log 0x04] }) ∧
      (s.mode = .track → s.cal.x ≠ 0 → s.cal.y ≠ 0 →
        let h := clamp (trunc (x * 32767 / (s.cal.x * 90)))
        let v := clamp (trunc (y * 32767 / (s.cal.y * 90)))
        exec (.tdev dx dy) s = .next { s with
          dev := ⟨x, y⟩
          cmd := { s.cmd with towerH := h, gunV := v, cameraV := v }
          dirty := s.dirty ||
            decide (h ≠ s.cmd.towerH ∨ v ≠ s.cmd.gunV ∨ v ≠ s.cmd.cameraV) }))

/-- CDPD (44_aggregator.md R138, R141): refused whole for a non-finite operand, else CAL and nothing else. -/
def Obligations.CalibrationIsStoredOnly : Prop :=
  ∀ (sx sy : Word32) (s : State),
    ((floatOperand sx = none ∨ floatOperand sy = none) →
      exec (.cdpd sx sy) s = .next { s with outPort := s.outPort ++ [.log 0x04] }) ∧
    (∀ x y : Rat, floatOperand sx = some x → floatOperand sy = some y →
      exec (.cdpd sx sy) s = .next { s with cal := ⟨x, y⟩ })

/-- PUBP (44_aggregator.md R143): nothing when clean; when dirty one INFL with all seven fields, and DIRTY is
cleared. -/
def Obligations.PublicationHappensOnlyWhenDirty : Prop :=
  ∀ s : State,
    (s.dirty = false → exec .pubp s = .next s) ∧
    (s.dirty = true → exec .pubp s = .next { s with
      dirty := false
      outPort := s.outPort ++ [.infl s.cmd.shot s.cmd.leftEngine s.cmd.rightEngine s.cmd.towerH
        s.cmd.gunV s.cmd.cameraV (if s.cmd.tag = .position then 0x01 else 0x00)] })

/-- TSTA (45_mode.md R148, R150, 30_encoding.md R69): MODE, TAG and DIRTY, and nothing else. -/
def Obligations.TrackingStatusSelectsModeAndTag : Prop :=
  ∀ (t : Byte) (s : State),
    (t = 0 → exec (.tsta t) s = .next { s with
      mode := .search, cmd := { s.cmd with tag := .velocity }, dirty := true }) ∧
    (t ≠ 0 → exec (.tsta t) s = .next { s with
      mode := .track, cmd := { s.cmd with tag := .position }, dirty := true })

/-- The source's testable property 8 (45_mode.md R151): tracking status true, then false, each followed by
PUBP, publishes twice, Position then Velocity, from every state. -/
def Obligations.TagsAlternateAcrossModes : Prop :=
  ∀ s : State, execAll [.tsta 1, .pubp, .tsta 0, .pubp] s = .next { s with
    mode := .search, cmd := { s.cmd with tag := .velocity }, dirty := false
    outPort := s.outPort ++
      [.infl s.cmd.shot s.cmd.leftEngine s.cmd.rightEngine s.cmd.towerH s.cmd.gunV s.cmd.cameraV 0x01,
       .infl s.cmd.shot s.cmd.leftEngine s.cmd.rightEngine s.cmd.towerH s.cmd.gunV s.cmd.cameraV 0x00] }

/-! ### Reset, and the rows that are no operations -/

/-- The reset state, field by field, after power-on and after RST (70_reset_and_hazards.md R176). The two
port fields are the model's and not spoken of. -/
def Obligations.ResetStateIsTheSpecs : Prop :=
  let atReset : State → Prop := fun s =>
    s.buf = [] ∧ s.syncst = .seeking ∧ s.link = false ∧ s.wdcnt = 0 ∧ s.txcnt = 0 ∧ s.lnkopen = false ∧
    s.joy = ⟨0, 0, 0, 0, 0, 0, 0, 0⟩ ∧ s.dev = ⟨0, 0⟩ ∧ s.cal = ⟨0, 0⟩ ∧ s.liml = 32767 ∧
    s.limr = 32767 ∧ s.mode = .search ∧
    s.cmd = { shot := 0, leftEngine := 0, rightEngine := 0, towerH := 0, gunV := 0, cameraV := 0,
              tag := .velocity } ∧
    s.dirty = false
  atReset State.reset ∧ ∀ s : State, ∃ t, exec .rst s = .next t ∧ atReset t

/-- RST (46_system.md R152): every item of R20 at its reset value, from every state, and no record. That what
the host holds (`pending`) and has been given (`outPort`) stays is the model's (log entries 1, 2). -/
def Obligations.RstRestoresTheResetState : Prop :=
  ∀ s : State, exec .rst s = .next {
    buf := [], syncst := .seeking, link := false, wdcnt := 0, txcnt := 0, lnkopen := false,
    joy := ⟨0, 0, 0, 0, 0, 0, 0, 0⟩, dev := ⟨0, 0⟩, cal := ⟨0, 0⟩, liml := 32767, limr := 32767,
    mode := .search,
    cmd := { shot := 0, leftEngine := 0, rightEngine := 0, towerH := 0, gunV := 0, cameraV := 0,
             tag := .velocity },
    dirty := false, pending := s.pending, outPort := s.outPort }

/-- The block recovers from every state (60_exceptions.md R175): RST and one well-formed inbound frame bring
the link online, with STAT(1) and the frame's YPR. -/
def Obligations.RecoveryFromEveryState : Prop :=
  ∀ (y p r : I16) (s : State),
    ∃ t, execAll [.rst, .rxd ([0x55, 0x55] ++ encTlm y p r)] s = .next t ∧
      t.link = true ∧ t.wdcnt = 500 ∧ t.outPort = s.outPort ++ [.stat 0x01, .ypr y p r]

/-- What the frame and record rows of the table do as instructions of the model: the record is emitted and
no other state changes (30_encoding.md R78; the model's choice, log entry 3). -/
def Obligations.RecordRowsAreEmitted : Prop :=
  ∀ (s : State) (b tag : Byte) (f : List Byte) (y p r t g : I16),
    exec (.frameCmd b y p r) s =
      .next { s with outPort := s.outPort ++ [.txf ([0x55, 0x55] ++ encCmd b y p r)] } ∧
    exec (.txf f) s = .next { s with outPort := s.outPort ++ [.txf f] } ∧
    exec (.ypr y p r) s = .next { s with outPort := s.outPort ++ [.ypr y p r] } ∧
    exec (.stat b) s = .next { s with outPort := s.outPort ++ [.stat b] } ∧
    exec (.infl b y p r t g tag) s =
      .next { s with outPort := s.outPort ++ [.infl b y p r t g tag] } ∧
    exec (.log b) s = .next { s with outPort := s.outPort ++ [.log b] }

/-! ### The whole machine -/

/-- The invariant holds at reset (10_state.md R25, R28, R29, 42_watchdog.md R112). -/
def Obligations.InvariantHoldsAtReset : Prop := Inv State.reset

/-- The invariant is kept by every step, whatever is presented: R25 (buffer and SYNCST), R28 (ranges of CMD,
gunV = cameraV), R29 (TAG = MODE), R20 (ranges of the counters and ceilings), R112 (timer armed exactly
while online), R36 and R37 (finite scale and deviation). -/
def Obligations.InvariantIsKeptByEveryStep : Prop :=
  ∀ s t : State, Inv s → step s = .next t → Inv t

/-- From a state with the invariant, every well-formed instruction only appends to what has been emitted,
and appends only records of 30_encoding.md R78 to R80 with the codes of 60_exceptions.md R157. -/
def Obligations.OnlyLegalRecordsAreEmitted : Prop :=
  ∀ (i : Instr) (s t : State), Inv s → i.wf = true → exec i s = .next t →
    ∃ rs, t.outPort = s.outPort ++ rs ∧ ∀ r ∈ rs, r.wf = true

/-- DIRTY = 0 promises that CMD has not changed unseen (44_aggregator.md R137): no instruction but RST leaves
DIRTY clear after changing CMD, and only PUBP and RST clear it. -/
def Obligations.NoCommandChangeGoesUnmarked : Prop :=
  ∀ (i : Instr) (s t : State), i ≠ .rst → exec i s = .next t →
    (t.dirty = false → t.cmd = s.cmd) ∧ (i ≠ .pubp → s.dirty = true → t.dirty = true)

/-- The write columns of the access table (10_state.md R40): each piece of state changes only in the
instructions the table marks (FRAME.TLM, RXD's other form, beside RXB and RXD: log entry 4). That no
instruction, RST included, changes `pending`, what the host has yet to present, is the model's: it is no
block state (R21; log entry 1). -/
def Obligations.EachStateItemHasItsWriters : Prop :=
  ∀ (i : Instr) (s t : State), exec i s = .next t →
    let rx := (∃ b, i = .rxb b) ∨ (∃ d, i = .rxd d) ∨ (∃ y p r, i = .frameTlm y p r)
    let joy := ∃ a, i = .joy a
    let tdev := ∃ dx dy, i = .tdev dx dy
    (t.buf ≠ s.buf ∨ t.syncst ≠ s.syncst → rx ∨ i = .rst) ∧
    (t.link ≠ s.link ∨ t.wdcnt ≠ s.wdcnt → rx ∨ i = .tick ∨ i = .rst) ∧
    (t.txcnt ≠ s.txcnt → i = .tick ∨ i = .rst) ∧
    (t.lnkopen ≠ s.lnkopen → i = .lnko ∨ i = .lnkc ∨ i = .rst) ∧
    (t.joy ≠ s.joy → joy ∨ i = .rst) ∧
    (t.dev ≠ s.dev → tdev ∨ i = .rst) ∧
    (t.cal ≠ s.cal → (∃ sx sy, i = .cdpd sx sy) ∨ i = .rst) ∧
    (t.liml ≠ s.liml ∨ t.limr ≠ s.limr → (∃ l r, i = .epwr l r) ∨ i = .rst) ∧
    (t.mode ≠ s.mode ∨ t.cmd.tag ≠ s.cmd.tag → (∃ f, i = .tsta f) ∨ i = .rst) ∧
    (t.cmd.shot ≠ s.cmd.shot → (∃ f, i = .shot f) ∨ i = .rst) ∧
    (t.cmd.leftEngine ≠ s.cmd.leftEngine ∨ t.cmd.rightEngine ≠ s.cmd.rightEngine → joy ∨ i = .rst) ∧
    (t.cmd.towerH ≠ s.cmd.towerH ∨ t.cmd.gunV ≠ s.cmd.gunV ∨ t.cmd.cameraV ≠ s.cmd.cameraV →
      joy ∨ tdev ∨ i = .rst) ∧
    (t.dirty ≠ s.dirty →
      joy ∨ tdev ∨ (∃ f, i = .shot f) ∨ (∃ f, i = .tsta f) ∨ i = .pubp ∨ i = .rst) ∧
    t.pending = s.pending

/-- Stored and never read (10_state.md R26, R37): nothing of an instruction's outcome depends on axes 3 and 4
of JOY or on DEV, but these two axes and DEV themselves. -/
def Obligations.AxesThreeFourAndDeviationAreNeverRead : Prop :=
  ∀ (i : Instr) (s t : State) (x y : I16) (d : Pair), exec i s = .next t →
    ∃ t', exec i { s with joy := { s.joy with a3 := x, a4 := y }, dev := d } = .next t' ∧
      { t' with joy := { t'.joy with a3 := t.joy.a3, a4 := t.joy.a4 }, dev := t.dev } = t

/-- The link's two flows share only LINK (00_scope.md R2, 43_transmitter.md R117): what a received byte does
depends on no register of the aggregator (44_aggregator.md R124), the Mode State Machine (45_mode.md R147)
or the transmitter (43_transmitter.md R114), and leaves each of them as it is. -/
def Obligations.ReceptionIgnoresTheCommandSide : Prop :=
  ∀ (b : Byte) (s t : State) (j : Axes) (dev cal : Pair) (ll lr : Nat) (m : Mode) (c : Command)
    (d o : Bool) (k : Nat), exec (.rxb b) s = .next t →
    exec (.rxb b) { s with
        joy := j, dev := dev, cal := cal, liml := ll, limr := lr, mode := m, cmd := c, dirty := d,
        lnkopen := o, txcnt := k } =
      .next { t with
        joy := j, dev := dev, cal := cal, liml := ll, limr := lr, mode := m, cmd := c, dirty := d,
        lnkopen := o, txcnt := k }
end

