-- ==== Sys2Proof/Laws/State.lean ====
section
/-! SUPPORT. What each named update of `State` leaves in each field: one lemma per field per update,
so that no proof unfolds a record update. -/

namespace Sys2Proof.Machine

/-! ### `setDirty` -/

@[simp] theorem State.setDirty_buf (s : State) : (s.setDirty).buf = s.buf := rfl
@[simp] theorem State.setDirty_syncst (s : State) : (s.setDirty).syncst = s.syncst := rfl
@[simp] theorem State.setDirty_link (s : State) : (s.setDirty).link = s.link := rfl
@[simp] theorem State.setDirty_wdcnt (s : State) : (s.setDirty).wdcnt = s.wdcnt := rfl
@[simp] theorem State.setDirty_txcnt (s : State) : (s.setDirty).txcnt = s.txcnt := rfl
@[simp] theorem State.setDirty_lnkopen (s : State) : (s.setDirty).lnkopen = s.lnkopen := rfl
@[simp] theorem State.setDirty_joy (s : State) : (s.setDirty).joy = s.joy := rfl
@[simp] theorem State.setDirty_dev (s : State) : (s.setDirty).dev = s.dev := rfl
@[simp] theorem State.setDirty_cal (s : State) : (s.setDirty).cal = s.cal := rfl
@[simp] theorem State.setDirty_liml (s : State) : (s.setDirty).liml = s.liml := rfl
@[simp] theorem State.setDirty_limr (s : State) : (s.setDirty).limr = s.limr := rfl
@[simp] theorem State.setDirty_mode (s : State) : (s.setDirty).mode = s.mode := rfl
@[simp] theorem State.setDirty_cmd (s : State) : (s.setDirty).cmd = s.cmd := rfl
@[simp] theorem State.setDirty_dirty (s : State) : (s.setDirty).dirty = true := rfl
@[simp] theorem State.setDirty_pending (s : State) : (s.setDirty).pending = s.pending := rfl
@[simp] theorem State.setDirty_outPort (s : State) : (s.setDirty).outPort = s.outPort := rfl

/-! ### `bufAppend` -/

@[simp] theorem State.bufAppend_buf (s : State) (b : Byte) : (s.bufAppend b).buf = s.buf ++ [b] := rfl
@[simp] theorem State.bufAppend_syncst (s : State) (b : Byte) : (s.bufAppend b).syncst = s.syncst := rfl
@[simp] theorem State.bufAppend_link (s : State) (b : Byte) : (s.bufAppend b).link = s.link := rfl
@[simp] theorem State.bufAppend_wdcnt (s : State) (b : Byte) : (s.bufAppend b).wdcnt = s.wdcnt := rfl
@[simp] theorem State.bufAppend_txcnt (s : State) (b : Byte) : (s.bufAppend b).txcnt = s.txcnt := rfl
@[simp] theorem State.bufAppend_lnkopen (s : State) (b : Byte) : (s.bufAppend b).lnkopen = s.lnkopen := rfl
@[simp] theorem State.bufAppend_joy (s : State) (b : Byte) : (s.bufAppend b).joy = s.joy := rfl
@[simp] theorem State.bufAppend_dev (s : State) (b : Byte) : (s.bufAppend b).dev = s.dev := rfl
@[simp] theorem State.bufAppend_cal (s : State) (b : Byte) : (s.bufAppend b).cal = s.cal := rfl
@[simp] theorem State.bufAppend_liml (s : State) (b : Byte) : (s.bufAppend b).liml = s.liml := rfl
@[simp] theorem State.bufAppend_limr (s : State) (b : Byte) : (s.bufAppend b).limr = s.limr := rfl
@[simp] theorem State.bufAppend_mode (s : State) (b : Byte) : (s.bufAppend b).mode = s.mode := rfl
@[simp] theorem State.bufAppend_cmd (s : State) (b : Byte) : (s.bufAppend b).cmd = s.cmd := rfl
@[simp] theorem State.bufAppend_dirty (s : State) (b : Byte) : (s.bufAppend b).dirty = s.dirty := rfl
@[simp] theorem State.bufAppend_pending (s : State) (b : Byte) : (s.bufAppend b).pending = s.pending := rfl
@[simp] theorem State.bufAppend_outPort (s : State) (b : Byte) : (s.bufAppend b).outPort = s.outPort := rfl

/-! ### `bufDrop` -/

@[simp] theorem State.bufDrop_buf (s : State) (n : Nat) : (s.bufDrop n).buf = s.buf.drop n := rfl
@[simp] theorem State.bufDrop_syncst (s : State) (n : Nat) : (s.bufDrop n).syncst = s.syncst := rfl
@[simp] theorem State.bufDrop_link (s : State) (n : Nat) : (s.bufDrop n).link = s.link := rfl
@[simp] theorem State.bufDrop_wdcnt (s : State) (n : Nat) : (s.bufDrop n).wdcnt = s.wdcnt := rfl
@[simp] theorem State.bufDrop_txcnt (s : State) (n : Nat) : (s.bufDrop n).txcnt = s.txcnt := rfl
@[simp] theorem State.bufDrop_lnkopen (s : State) (n : Nat) : (s.bufDrop n).lnkopen = s.lnkopen := rfl
@[simp] theorem State.bufDrop_joy (s : State) (n : Nat) : (s.bufDrop n).joy = s.joy := rfl
@[simp] theorem State.bufDrop_dev (s : State) (n : Nat) : (s.bufDrop n).dev = s.dev := rfl
@[simp] theorem State.bufDrop_cal (s : State) (n : Nat) : (s.bufDrop n).cal = s.cal := rfl
@[simp] theorem State.bufDrop_liml (s : State) (n : Nat) : (s.bufDrop n).liml = s.liml := rfl
@[simp] theorem State.bufDrop_limr (s : State) (n : Nat) : (s.bufDrop n).limr = s.limr := rfl
@[simp] theorem State.bufDrop_mode (s : State) (n : Nat) : (s.bufDrop n).mode = s.mode := rfl
@[simp] theorem State.bufDrop_cmd (s : State) (n : Nat) : (s.bufDrop n).cmd = s.cmd := rfl
@[simp] theorem State.bufDrop_dirty (s : State) (n : Nat) : (s.bufDrop n).dirty = s.dirty := rfl
@[simp] theorem State.bufDrop_pending (s : State) (n : Nat) : (s.bufDrop n).pending = s.pending := rfl
@[simp] theorem State.bufDrop_outPort (s : State) (n : Nat) : (s.bufDrop n).outPort = s.outPort := rfl

/-! ### `bufKeepLast` -/

@[simp] theorem State.bufKeepLast_buf (s : State) (n : Nat) : (s.bufKeepLast n).buf = s.buf.drop (s.buf.length - n) := rfl
@[simp] theorem State.bufKeepLast_syncst (s : State) (n : Nat) : (s.bufKeepLast n).syncst = s.syncst := rfl
@[simp] theorem State.bufKeepLast_link (s : State) (n : Nat) : (s.bufKeepLast n).link = s.link := rfl
@[simp] theorem State.bufKeepLast_wdcnt (s : State) (n : Nat) : (s.bufKeepLast n).wdcnt = s.wdcnt := rfl
@[simp] theorem State.bufKeepLast_txcnt (s : State) (n : Nat) : (s.bufKeepLast n).txcnt = s.txcnt := rfl
@[simp] theorem State.bufKeepLast_lnkopen (s : State) (n : Nat) : (s.bufKeepLast n).lnkopen = s.lnkopen := rfl
@[simp] theorem State.bufKeepLast_joy (s : State) (n : Nat) : (s.bufKeepLast n).joy = s.joy := rfl
@[simp] theorem State.bufKeepLast_dev (s : State) (n : Nat) : (s.bufKeepLast n).dev = s.dev := rfl
@[simp] theorem State.bufKeepLast_cal (s : State) (n : Nat) : (s.bufKeepLast n).cal = s.cal := rfl
@[simp] theorem State.bufKeepLast_liml (s : State) (n : Nat) : (s.bufKeepLast n).liml = s.liml := rfl
@[simp] theorem State.bufKeepLast_limr (s : State) (n : Nat) : (s.bufKeepLast n).limr = s.limr := rfl
@[simp] theorem State.bufKeepLast_mode (s : State) (n : Nat) : (s.bufKeepLast n).mode = s.mode := rfl
@[simp] theorem State.bufKeepLast_cmd (s : State) (n : Nat) : (s.bufKeepLast n).cmd = s.cmd := rfl
@[simp] theorem State.bufKeepLast_dirty (s : State) (n : Nat) : (s.bufKeepLast n).dirty = s.dirty := rfl
@[simp] theorem State.bufKeepLast_pending (s : State) (n : Nat) : (s.bufKeepLast n).pending = s.pending := rfl
@[simp] theorem State.bufKeepLast_outPort (s : State) (n : Nat) : (s.bufKeepLast n).outPort = s.outPort := rfl

/-! ### `emit` -/

@[simp] theorem State.emit_buf (s : State) (r : Record) : (s.emit r).buf = s.buf := rfl
@[simp] theorem State.emit_syncst (s : State) (r : Record) : (s.emit r).syncst = s.syncst := rfl
@[simp] theorem State.emit_link (s : State) (r : Record) : (s.emit r).link = s.link := rfl
@[simp] theorem State.emit_wdcnt (s : State) (r : Record) : (s.emit r).wdcnt = s.wdcnt := rfl
@[simp] theorem State.emit_txcnt (s : State) (r : Record) : (s.emit r).txcnt = s.txcnt := rfl
@[simp] theorem State.emit_lnkopen (s : State) (r : Record) : (s.emit r).lnkopen = s.lnkopen := rfl
@[simp] theorem State.emit_joy (s : State) (r : Record) : (s.emit r).joy = s.joy := rfl
@[simp] theorem State.emit_dev (s : State) (r : Record) : (s.emit r).dev = s.dev := rfl
@[simp] theorem State.emit_cal (s : State) (r : Record) : (s.emit r).cal = s.cal := rfl
@[simp] theorem State.emit_liml (s : State) (r : Record) : (s.emit r).liml = s.liml := rfl
@[simp] theorem State.emit_limr (s : State) (r : Record) : (s.emit r).limr = s.limr := rfl
@[simp] theorem State.emit_mode (s : State) (r : Record) : (s.emit r).mode = s.mode := rfl
@[simp] theorem State.emit_cmd (s : State) (r : Record) : (s.emit r).cmd = s.cmd := rfl
@[simp] theorem State.emit_dirty (s : State) (r : Record) : (s.emit r).dirty = s.dirty := rfl
@[simp] theorem State.emit_pending (s : State) (r : Record) : (s.emit r).pending = s.pending := rfl
@[simp] theorem State.emit_outPort (s : State) (r : Record) : (s.emit r).outPort = s.outPort ++ [r] := rfl

/-! ### `present` -/

@[simp] theorem State.present_buf (s : State) (item : Item) : (s.present item).buf = s.buf := rfl
@[simp] theorem State.present_syncst (s : State) (item : Item) : (s.present item).syncst = s.syncst := rfl
@[simp] theorem State.present_link (s : State) (item : Item) : (s.present item).link = s.link := rfl
@[simp] theorem State.present_wdcnt (s : State) (item : Item) : (s.present item).wdcnt = s.wdcnt := rfl
@[simp] theorem State.present_txcnt (s : State) (item : Item) : (s.present item).txcnt = s.txcnt := rfl
@[simp] theorem State.present_lnkopen (s : State) (item : Item) : (s.present item).lnkopen = s.lnkopen := rfl
@[simp] theorem State.present_joy (s : State) (item : Item) : (s.present item).joy = s.joy := rfl
@[simp] theorem State.present_dev (s : State) (item : Item) : (s.present item).dev = s.dev := rfl
@[simp] theorem State.present_cal (s : State) (item : Item) : (s.present item).cal = s.cal := rfl
@[simp] theorem State.present_liml (s : State) (item : Item) : (s.present item).liml = s.liml := rfl
@[simp] theorem State.present_limr (s : State) (item : Item) : (s.present item).limr = s.limr := rfl
@[simp] theorem State.present_mode (s : State) (item : Item) : (s.present item).mode = s.mode := rfl
@[simp] theorem State.present_cmd (s : State) (item : Item) : (s.present item).cmd = s.cmd := rfl
@[simp] theorem State.present_dirty (s : State) (item : Item) : (s.present item).dirty = s.dirty := rfl
@[simp] theorem State.present_pending (s : State) (item : Item) : (s.present item).pending = item :: s.pending := rfl
@[simp] theorem State.present_outPort (s : State) (item : Item) : (s.present item).outPort = s.outPort := rfl

/-! ### `dirtyIf` and `bufAppendAll`, as one record update each -/

/-- `dirtyIf` only ever sets DIRTY (44_aggregator.md R137). -/
theorem State.dirtyIf_eq (s : State) (d : Bool) : s.dirtyIf d = { s with dirty := s.dirty || d } := by
  cases d <;> simp [State.dirtyIf, State.setDirty]

/-- Appending byte by byte is appending the string (41_frame_sync.md R97). -/
theorem State.bufAppendAll_eq (s : State) (d : List Byte) :
    s.bufAppendAll d = { s with buf := s.buf ++ d } := by
  induction d generalizing s with
  | nil => simp [State.bufAppendAll]
  | cons b d ih =>
    have := ih (s.bufAppend b)
    simp only [State.bufAppendAll, List.foldl_cons] at this ⊢
    rw [this]
    simp [State.bufAppend]

end Sys2Proof.Machine
end

