-- ==== Sys2Proof/Laws/Ops.lean ====
section
/-! SUPPORT. For each shared operation, one lemma that says once everything it does. -/

namespace Sys2Proof.Machine

/-! ### Errors, link, timers -/

/-- `raise` answers a next state that differs by one LOG record (00_scope.md R15). -/
theorem raise_eq (e : ErrorClass) (s : State) :
    raise e s = .next { s with outPort := s.outPort ++ [.log e.code] } := rfl

/-- SETLINK (42_watchdog.md R106): LINK, and one STAT on a change. -/
theorem setLink_eq (b : Bool) (s : State) :
    setLink b s =
      { s with link := b, outPort := s.outPort ++ if s.link = b then [] else [.stat (linkByte b)] } := by
  by_cases h : s.link = b
  · subst h; simp [setLink]
  · simp [setLink, h, State.emit]

/-- WD_FRAME (R107). -/
theorem wdFrame_eq (s : State) :
    wdFrame s =
      { s with wdcnt := 500, link := true,
               outPort := s.outPort ++ if s.link = true then [] else [.stat 1] } := by
  simp [wdFrame, setLink_eq, linkByte, Config.wdTicks, Config.wdTimeoutMs, Config.tTickMs]

/-- WD_STEP (R108): it writes WDCNT, and on expiry LINK with a STAT(0) if that is a change. -/
theorem wdStep_eq (s : State) :
    wdStep s =
      { s with wdcnt := s.wdcnt - 1, link := if s.wdcnt = 1 then false else s.link,
               outPort := s.outPort ++ if s.wdcnt = 1 ∧ s.link = true then [.stat 0] else [] } := by
  unfold wdStep
  by_cases h0 : s.wdcnt = 0
  · have : s.wdcnt - 1 = s.wdcnt := by omega
    simp [h0]
    cases s; simp_all
  · by_cases h1 : s.wdcnt = 1
    · cases s.link <;> simp [h1, setLink_eq, linkByte]
    · have : s.wdcnt - 1 ≠ 0 := by omega
      simp [h0, h1, this]

/-- SEND (43_transmitter.md R116): at most one TXF, and nothing else. -/
theorem send_eq (s : State) :
    send s =
      { s with outPort := s.outPort ++
          if s.lnkopen = true ∧ s.link = true then [.txf (commandFrame s.cmd)] else [] } := by
  by_cases h : s.lnkopen = true ∧ s.link = true
  · simp [send, h.1, h.2, State.emit]
  · rw [if_neg h, List.append_nil, send]
    split
    · rfl
    · split
      · rfl
      · simp_all

/-- TX_STEP (R115). -/
theorem txStep_eq (s : State) :
    txStep s =
      { s with txcnt := if s.txcnt + 1 = 50 then 0 else s.txcnt + 1,
               outPort := s.outPort ++
                 if s.txcnt + 1 = 50 ∧ s.lnkopen = true ∧ s.link = true then
                   [.txf (commandFrame s.cmd)] else [] } := by
  by_cases h : s.txcnt = 49 <;>
    simp [txStep, h, send_eq, Config.txTicks, Config.txPeriodMs, Config.tTickMs]

/-! ### Command writes -/

/-- Storing the aiming fields (44_aggregator.md R131, R139). -/
theorem storeAim_eq (h v : I16) (s : State) :
    storeAim (h, v) s =
      { s with
        cmd := { s.cmd with towerH := h, gunV := v, cameraV := v }
        dirty := s.dirty || (h != s.cmd.towerH || v != s.cmd.gunV || v != s.cmd.cameraV) } := by
  simp [storeAim, State.dirtyIf_eq]

/-- Storing the engine fields (R131). -/
theorem storeDrive_eq (l r : I16) (s : State) :
    storeDrive (l, r) s =
      { s with
        cmd := { s.cmd with leftEngine := l, rightEngine := r }
        dirty := s.dirty || (l != s.cmd.leftEngine || r != s.cmd.rightEngine) } := by
  simp [storeDrive, State.dirtyIf_eq]

/-- A clamped value is in range (10_state.md R28). -/
theorem clampCmd_range (x : Int) : -32767 ≤ clampCmd x ∧ clampCmd x ≤ 32767 := by
  unfold clampCmd Config.clampLo Config.clampHi
  split
  · omega
  · split <;> omega

/-- The register holds the clamped value itself: nothing wraps (44_aggregator.md R145 e). -/
theorem toCmd_toInt (x : Int) : (toCmd x).toInt = clampCmd x := by
  have h := clampCmd_range x
  rw [toCmd, BitVec.toInt_ofInt]
  apply Int.bmod_eq_of_le <;> simp <;> omega

/-! ### Fetching -/

/-- With an item presented, the step runs what it decodes to (30_encoding.md R72). -/
theorem step_present (s : State) (item : Item) :
    step (s.present item) = exec (decodeItem item) s := rfl

/-- The same, of a state whose next item is given. -/
theorem step_of_pending {s : State} {item : Item} {rest : List Item} (h : s.pending = item :: rest) :
    step s = exec (decodeItem item) { s with pending := rest } := by
  simp [step, fetch, h]

/-- With nothing presented the step is idle. -/
theorem step_of_nothing {s : State} (h : s.pending = []) : step s = .next s := by
  simp [step, fetch, h]

/-- What `decodeItem` answers: the row of the table, or reception, or ILLEGAL. -/
theorem decodeItem_cases (item : Item) :
    decode item.space item.bytes = .ok (decodeItem item) ∨
    (∃ e, decode item.space item.bytes = .error e ∧
      ((item.space = .rx ∧ decodeItem item = .rxd item.bytes) ∨
       ((item.space = .tx ∨ item.space = .out) ∧ decodeItem item = .illegal item.bytes))) := by
  obtain ⟨sp, w⟩ := item
  cases sp with
  | event => exact .inl rfl
  | rx => cases h : decodeTelemetryFrame w <;> simp [decodeItem, decode, h]
  | tx => cases h : decodeCommandFrame w <;> simp [decodeItem, decode, h]
  | out => cases h : decodeRecord w <;> simp [decodeItem, decode, h]

/-- Every word of the event port runs. -/
theorem step_present_event (s : State) (w : List Byte) :
    step (s.present ⟨.event, w⟩) = exec (decodeEvent w) s := rfl

end Sys2Proof.Machine
end

