-- ==== Sys2Proof/Laws/PerInstr.lean ====
section
/-! SUPPORT. Statements about every instruction, one lemma per constructor. The family `WordLength`:
the encoder gives each row of spec/opcode_table.json the length of its `length` column. -/

namespace Sys2Proof.Laws

/-- The `length` column of spec/opcode_table.json, in bytes (30_encoding.md R73, R80, R63, R64); for
ILLEGAL, whose column says "any", the word's own. -/
def rowLength : Instr → Nat
  | .rxb _ => 2
  | .rxd d => 2 + d.length
  | .rxe => 1
  | .tick => 1
  | .lnko => 1
  | .lnkc => 1
  | .txr _ => 2
  | .joy _ => 17
  | .tdev _ _ => 9
  | .cdpd _ _ => 9
  | .epwr _ _ => 3
  | .shot _ => 2
  | .tsta _ => 2
  | .pubp => 1
  | .rst => 1
  | .illegal word => word.length
  | .frameTlm _ _ _ => 8
  | .frameCmd _ _ _ _ => 9
  | .txf _ => 10
  | .ypr _ _ _ => 7
  | .stat _ => 2
  | .infl _ _ _ _ _ _ _ => 13
  | .log _ => 2

/-- A well-formed instruction's encoding has its row's length. -/
def WordLength.Statement (i : Instr) : Prop := i.wf = true → (encode i).length = rowLength i

theorem WordLength.rxb (b : Byte) : WordLength.Statement (.rxb b) := fun _ => rfl
theorem WordLength.rxd (d : List Byte) : WordLength.Statement (.rxd d) := fun _ => by
  simp only [encode, rowLength, List.length_cons]; omega
theorem WordLength.rxe : WordLength.Statement .rxe := fun _ => rfl
theorem WordLength.tick : WordLength.Statement .tick := fun _ => rfl
theorem WordLength.lnko : WordLength.Statement .lnko := fun _ => rfl
theorem WordLength.lnkc : WordLength.Statement .lnkc := fun _ => rfl
theorem WordLength.txr (w : Byte) : WordLength.Statement (.txr w) := fun _ => rfl
theorem WordLength.joy (a : Axes) : WordLength.Statement (.joy a) := fun _ => rfl
theorem WordLength.tdev (dx dy : Word32) : WordLength.Statement (.tdev dx dy) := fun _ => rfl
theorem WordLength.cdpd (sx sy : Word32) : WordLength.Statement (.cdpd sx sy) := fun _ => rfl
theorem WordLength.epwr (pl pr : Byte) : WordLength.Statement (.epwr pl pr) := fun _ => rfl
theorem WordLength.shot (f : Byte) : WordLength.Statement (.shot f) := fun _ => rfl
theorem WordLength.tsta (t : Byte) : WordLength.Statement (.tsta t) := fun _ => rfl
theorem WordLength.pubp : WordLength.Statement .pubp := fun _ => rfl
theorem WordLength.rst : WordLength.Statement .rst := fun _ => rfl
theorem WordLength.illegal (word : List Byte) : WordLength.Statement (.illegal word) := fun _ => rfl
theorem WordLength.frameTlm (yaw pitch roll : I16) :
    WordLength.Statement (.frameTlm yaw pitch roll) := fun _ => rfl
theorem WordLength.frameCmd (shot : Byte) (leftEngine rightEngine towerH : I16) :
    WordLength.Statement (.frameCmd shot leftEngine rightEngine towerH) := fun _ => rfl
theorem WordLength.txf (frame : List Byte) : WordLength.Statement (.txf frame) := fun h => by
  simp only [Instr.wf, Record.wf, Bool.and_eq_true, beq_iff_eq] at h
  simp [encode, Record.bytes, rowLength, h.1, Config.txFrameLen, Config.markerLen, Config.cmdSize]
theorem WordLength.ypr (yaw pitch roll : I16) : WordLength.Statement (.ypr yaw pitch roll) :=
  fun _ => rfl
theorem WordLength.stat (s : Byte) : WordLength.Statement (.stat s) := fun _ => rfl
theorem WordLength.infl (shot : Byte) (leftEngine rightEngine towerH gunV cameraV : I16) (tag : Byte) :
    WordLength.Statement (.infl shot leftEngine rightEngine towerH gunV cameraV tag) := fun _ => rfl
theorem WordLength.log (code : Byte) : WordLength.Statement (.log code) := fun _ => rfl

end Sys2Proof.Laws
end

