-- ==== Sys2Proof/Laws/Sync.lean ====
section
/-! SUPPORT. The receive buffer and procedure SYNC (spec/41_frame_sync.md R95): Find2, the two parts
of a pass, and the loop as the rule writes it, free of the pass count. -/

namespace Sys2Proof.Machine

/-! ### Find2 (00_scope.md R14) -/

/-- No pair found: there is none. -/
theorem find2_none {m0 m1 : Byte} {l : List Byte} (h : find2 m0 m1 l = none) (k : Nat) :
    ¬ (l[k]? = some m0 ∧ l[k + 1]? = some m1) := by
  induction l generalizing k with
  | nil => simp
  | cons a l ih =>
    cases l with
    | nil => cases k <;> simp
    | cons b rest =>
      rw [find2] at h
      split at h
      · cases h
      · rename_i hne
        have hn : find2 m0 m1 (b :: rest) = none := by simpa using h
        cases k with
        | zero => simpa using hne
        | succ k => simpa using ih hn k

/-- A found index is that of a pair, and of the first one. -/
theorem find2_some {m0 m1 : Byte} {l : List Byte} {i : Nat} (h : find2 m0 m1 l = some i) :
    (∃ rest, l.drop i = m0 :: m1 :: rest) ∧
    ∀ k < i, ¬ (l[k]? = some m0 ∧ l[k + 1]? = some m1) := by
  induction l generalizing i with
  | nil => simp [find2] at h
  | cons a l ih =>
    cases l with
    | nil => simp [find2] at h
    | cons b rest =>
      rw [find2] at h
      split at h
      · rename_i he
        cases h
        exact ⟨⟨rest, by simp [he.1, he.2]⟩, by omega⟩
      · rename_i hne
        obtain ⟨j, hj, rfl⟩ := Option.map_eq_some_iff.mp h
        obtain ⟨hd, hlt⟩ := ih hj
        refine ⟨by simpa using hd, fun k hk => ?_⟩
        cases k with
        | zero => simpa using hne
        | succ k => simpa using hlt k (by omega)

/-! ### The two parts of a pass -/

/-- The Seeking part writes BUF and SYNCST only, never lengthens BUF, and ends Locked on a marker or
Seeking on at most one byte. -/
theorem syncSeek_cases (s : State) :
    (s.syncst = .locked ∧ syncSeek s = s) ∨
    (s.syncst = .seeking ∧ s.buf.length < 2 ∧ syncSeek s = s) ∨
    (s.syncst = .seeking ∧ 2 ≤ s.buf.length ∧ find2 0x55 0x55 s.buf = none ∧
      syncSeek s = { s with buf := s.buf.drop (s.buf.length - 1) }) ∨
    (∃ i rest, s.syncst = .seeking ∧ find2 0x55 0x55 s.buf = some i ∧
      s.buf.drop i = 0x55 :: 0x55 :: rest ∧
      syncSeek s = { s with buf := 0x55 :: 0x55 :: rest, syncst := .locked }) := by
  cases hs : s.syncst with
  | locked => exact .inl ⟨rfl, by simp [syncSeek, hs]⟩
  | seeking =>
    by_cases hl : s.buf.length < 2
    · exact .inr (.inl ⟨rfl, hl, by simp [syncSeek, hs, Config.markerLen, hl]⟩)
    · refine .inr (.inr ?_)
      have hl' : ¬ s.buf.length < Config.markerLen := hl
      cases hf : find2 0x55 0x55 s.buf with
      | none =>
        refine .inl ⟨rfl, by omega, rfl, ?_⟩
        have hf' : find2 Config.marker0 Config.marker1 s.buf = none := hf
        simp only [syncSeek, hs, if_neg hl', hf']
        simp [Config.markerLen, State.bufKeepLast, State.bufDrop, hs]
      | some i =>
        obtain ⟨⟨rest, hr⟩, -⟩ := find2_some hf
        refine .inr ⟨i, rest, rfl, rfl, hr, ?_⟩
        have hf' : find2 Config.marker0 Config.marker1 s.buf = some i := hf
        simp only [syncSeek, hs, if_neg hl', hf', State.bufDrop, hr]

/-- The Locked part on a whole frame (R95): watchdog, publication, removal. -/
theorem syncFrame_eq (s : State) (m0 m1 p0 p1 p2 p3 p4 p5 : Byte) (rest : List Byte)
    (h : s.buf = m0 :: m1 :: p0 :: p1 :: p2 :: p3 :: p4 :: p5 :: rest) :
    syncFrame s =
      { s with
        buf := rest, syncst := .seeking, wdcnt := 500, link := true
        outPort := s.outPort ++ (if s.link = true then [] else [.stat 1]) ++
          [.ypr (i16OfBytes p0 p1) (i16OfBytes p2 p3) (i16OfBytes p4 p5)] } := by
  simp [syncFrame, wdFrame_eq, State.memRead, h, decTlm, Config.markerLen, Config.tlmSize,
    Config.rxFrameLen, State.emit, State.bufDrop]

/-- A buffer of at least eight bytes, byte by byte. -/
theorem eight_bytes {l : List Byte} (h : 8 ≤ l.length) :
    ∃ m0 m1 p0 p1 p2 p3 p4 p5 rest, l = m0 :: m1 :: p0 :: p1 :: p2 :: p3 :: p4 :: p5 :: rest := by
  match l, h with
  | m0 :: m1 :: p0 :: p1 :: p2 :: p3 :: p4 :: p5 :: rest, _ => exact ⟨_, _, _, _, _, _, _, _, _, rfl⟩

/-- The Locked part removes eight bytes. -/
theorem syncFrame_buf (s : State) (h : 8 ≤ s.buf.length) : (syncFrame s).buf = s.buf.drop 8 := by
  obtain ⟨_, _, _, _, _, _, _, _, _, hb⟩ := eight_bytes h
  rw [syncFrame_eq s _ _ _ _ _ _ _ _ _ hb, hb]; rfl

/-- The Seeking part never lengthens the buffer. -/
theorem syncSeek_length (s : State) : (syncSeek s).buf.length ≤ s.buf.length := by
  obtain ⟨-, h⟩ | ⟨-, -, h⟩ | ⟨-, -, -, h⟩ | ⟨i, rest, -, -, hd, h⟩ := syncSeek_cases s
  · rw [h]
  · rw [h]
  · rw [h]; simp
  · rw [h]; rw [← hd]; simp

/-! ### The loop -/

/-- Passes beyond those the buffer's length calls for change nothing. -/
theorem syncLoop_fuel (n m : Nat) (s : State) (hn : s.buf.length / 8 + 1 ≤ n)
    (hm : s.buf.length / 8 + 1 ≤ m) : syncLoop n s = syncLoop m s := by
  induction n generalizing m s with
  | zero => omega
  | succ n ih =>
    cases m with
    | zero => omega
    | succ m =>
      simp only [syncLoop]
      split
      · rename_i hc
        have hlen := syncSeek_length s
        have h8 : 8 ≤ (syncSeek s).buf.length := hc.2
        have hb := syncFrame_buf _ h8
        have : (syncFrame (syncSeek s)).buf.length = (syncSeek s).buf.length - 8 := by simp [hb]
        exact ih m _ (by omega) (by omega)
      · rfl

/-- SYNC as R95 writes it: one pass, then again while a pass ended with a whole frame. -/
theorem sync_eq (s : State) :
    sync s =
      if (syncSeek s).syncst = .locked ∧ 8 ≤ (syncSeek s).buf.length then
        sync (syncFrame (syncSeek s))
      else syncSeek s := by
  conv_lhs => rw [sync, syncLoop]
  by_cases hc : (syncSeek s).syncst = .locked ∧ 8 ≤ (syncSeek s).buf.length
  · have hlen := syncSeek_length s
    have hb := syncFrame_buf _ hc.2
    have : (syncFrame (syncSeek s)).buf.length = (syncSeek s).buf.length - 8 := by simp [hb]
    rw [if_pos hc, if_pos (by simpa [Config.rxFrameLen, Config.markerLen, Config.tlmSize] using hc)]
    rw [sync]
    refine syncLoop_fuel _ _ _ ?_ ?_ <;>
      simp only [Config.rxFrameLen, Config.markerLen, Config.tlmSize] <;> omega
  · rw [if_neg hc, if_neg (by simpa [Config.rxFrameLen, Config.markerLen, Config.tlmSize] using hc)]

/-- An induction over the passes of SYNC: a property of (state before, state after) holds if it holds
of a last pass, and passes back over a frame. -/
theorem sync_induction {P : State → State → Prop}
    (last : ∀ s, ¬ ((syncSeek s).syncst = .locked ∧ 8 ≤ (syncSeek s).buf.length) → P s (syncSeek s))
    (frame : ∀ s t, (syncSeek s).syncst = .locked → 8 ≤ (syncSeek s).buf.length →
      P (syncFrame (syncSeek s)) t → P s t) (s : State) : P s (sync s) := by
  induction hk : s.buf.length using Nat.strong_induction_on generalizing s with
  | _ k ih =>
    rw [sync_eq]
    split
    · rename_i hc
      have hlen := syncSeek_length s
      have hb := syncFrame_buf _ hc.2
      have : (syncFrame (syncSeek s)).buf.length = (syncSeek s).buf.length - 8 := by simp [hb]
      exact frame s _ hc.1 hc.2 (ih _ (by omega) _ rfl)
    · rename_i hc
      exact last s hc

/-- SYNC writes BUF, SYNCST, WDCNT, LINK and the output port, and nothing else (10_state.md R40). -/
theorem sync_writes (s : State) :
    sync s = { s with buf := (sync s).buf, syncst := (sync s).syncst, wdcnt := (sync s).wdcnt,
                      link := (sync s).link, outPort := (sync s).outPort } := by
  refine sync_induction
    (P := fun s t => t = { s with buf := t.buf, syncst := t.syncst, wdcnt := t.wdcnt, link := t.link, outPort := t.outPort })
    (fun s _ => ?_) (fun s t _ h8 h => ?_) s
  · obtain ⟨-, h⟩ | ⟨-, -, h⟩ | ⟨-, -, -, h⟩ | ⟨i, rest, -, -, -, h⟩ := syncSeek_cases s <;> rw [h]
  · obtain ⟨_, _, _, _, _, _, _, _, _, hb⟩ := eight_bytes h8
    rw [syncFrame_eq _ _ _ _ _ _ _ _ _ _ hb] at h
    rw [h]
    obtain ⟨-, h'⟩ | ⟨-, -, h'⟩ | ⟨-, -, -, h'⟩ | ⟨i, rest, -, -, -, h'⟩ := syncSeek_cases s <;>
      rw [h']

end Sys2Proof.Machine
end

