-- ==== Sys2Proof/Tests/Slice0.lean ====
section
/-! SUPPORT. Tests. Expected values are those of spec/95_test_vectors.md (V<n>), of the corner-case tables of
the section files, or words written out from the encoding tables; each test names its source. -/

namespace Sys2Proof.Tests

open Sys2Proof Sys2Proof.Machine

/-- A field of the next state, `none` if the outcome is not one. -/
def after {α : Type} (o : Host.Outcome State Fault Refusal) (f : State → α) : Option α :=
  match o with
  | .next t => some (f t)
  | .fault _ => none
  | .refused _ => none

/-- The reset state with the link online and armed, and the transport open. -/
def online : State := { State.reset with link := true, wdcnt := 500, lnkopen := true }

/-- The reset state in Track with a calibration scale. -/
def tracking (x y : Rat) : State :=
  { State.reset with
    mode := .track, cmd := { State.reset.cmd with tag := .position }, cal := ⟨x, y⟩ }

/-- The reset state locked on seven bytes: one short of the frame (1, 2, 3) (V25). -/
def sevenBytes : State :=
  { State.reset with buf := [0x55, 0x55, 1, 0, 2, 0, 3], syncst := .locked }

/-! ### WellFormed refuses each ill-formed term -/

theorem test_wf_rxd_count (d : List Byte) (h : d.length = 256) : (Instr.rxd d).wf = false := by
  simp [Instr.wf, Config.rxdMax, h]
theorem test_wf_rxd_max (d : List Byte) (h : d.length = 255) : (Instr.rxd d).wf = true := by
  simp [Instr.wf, Config.rxdMax, h]
theorem test_wf_illegal_of_legal_word : (Instr.illegal [0x04]).wf = false := by decide
theorem test_wf_frameCmd_shot : (Instr.frameCmd 2 0 0 0).wf = false := by decide
theorem test_wf_txf_length : (Instr.txf [0x55, 0x55]).wf = false := by decide
theorem test_wf_txf_marker : (Instr.txf [0x55, 0x54, 0, 0, 0, 0, 0, 0, 0]).wf = false := by decide
theorem test_wf_stat_value : (Instr.stat 2).wf = false := by decide
theorem test_wf_infl_shot : (Instr.infl 2 0 0 0 0 0 0).wf = false := by decide
theorem test_wf_infl_tag : (Instr.infl 0 0 0 0 0 0 2).wf = false := by decide
theorem test_wf_log_zero : (Instr.log 0).wf = false := by decide
theorem test_wf_log_six : (Instr.log 6).wf = false := by decide

/-! ### Decoding: one word per row, written out from 30_encoding.md R63, R64, R73 to R79 -/

theorem test_decode_rxb : decodeEvent [0x01, 0xA7] = .rxb 0xA7 := by decide
theorem test_decode_rxd : decodeEvent [0x02, 0x03, 0xA7, 0x55, 0x13] = .rxd [0xA7, 0x55, 0x13] := by
  decide
theorem test_decode_rxe : decodeEvent [0x03] = .rxe := by decide
theorem test_decode_tick : decodeEvent [0x04] = .tick := by decide
theorem test_decode_lnko : decodeEvent [0x05] = .lnko := by decide
theorem test_decode_lnkc : decodeEvent [0x06] = .lnkc := by decide
theorem test_decode_txr : decodeEvent [0x07, 0x09] = .txr 9 := by decide
theorem test_decode_joy :
    decodeEvent [0x10, 0xE8, 0x03, 0xD0, 0x07, 0x01, 0x00, 0x02, 0x00, 0x03, 0x00, 0x04, 0x00, 0x05,
      0x00, 0x01, 0x80] = .joy ⟨1000, 2000, 1, 2, 3, 4, 5, 0x8001⟩ := by decide
theorem test_decode_tdev :
    decodeEvent [0x11, 0x00, 0x00, 0xC8, 0x42, 0x00, 0x00, 0x34, 0xC2] =
      .tdev 0x42C80000 0xC2340000 := by decide
theorem test_decode_cdpd :
    decodeEvent [0x12, 0x00, 0x00, 0xA0, 0x41, 0x00, 0x00, 0x78, 0x41] =
      .cdpd 0x41A00000 0x41780000 := by decide
theorem test_decode_epwr : decodeEvent [0x13, 0x32, 0x4B] = .epwr 50 75 := by decide
theorem test_decode_shot : decodeEvent [0x14, 0x80] = .shot 0x80 := by decide
theorem test_decode_tsta : decodeEvent [0x15, 0x01] = .tsta 1 := by decide
theorem test_decode_pubp : decodeEvent [0x16] = .pubp := by decide
theorem test_decode_rst : decodeEvent [0x7F] = .rst := by decide
/-- V93, V94 and the empty word: unknown opcodes and wrong lengths. -/
theorem test_decode_illegal :
    [[], [0x00], [0x08], [0x17, 0x00], [0xFF], [0x01], [0x04, 0x00], [0x02, 0x03, 0x55, 0x55],
      [0x10, 0x00], [0x13, 0x32], [0x02], [0x80, 0x00], [0x55, 0x55]].all
      (fun w => decodeEvent w == .illegal w) = true := by decide
theorem test_decode_frameTlm :
    (decode .rx [0x55, 0x55, 0x64, 0x00, 0x38, 0xFF, 0x2C, 0x01]).toOption =
      some (.frameTlm 100 0xFF38 300) := by decide
theorem test_decode_frameCmd :
    (decode .tx [0x55, 0x55, 0x01, 0xFF, 0x7F, 0x01, 0x80, 0x00, 0x10]).toOption =
      some (.frameCmd 1 32767 0x8001 4096) := by decide
theorem test_decode_txf :
    (decode .out [0x80, 0x55, 0x55, 0, 0xFF, 0x7F, 0xFF, 0x7F, 0, 0]).toOption =
      some (.txf [0x55, 0x55, 0, 0xFF, 0x7F, 0xFF, 0x7F, 0, 0]) := by decide
theorem test_decode_ypr :
    (decode .out [0x81, 0x64, 0x00, 0x38, 0xFF, 0x2C, 0x01]).toOption = some (.ypr 100 0xFF38 300) := by
  decide
theorem test_decode_stat : (decode .out [0x82, 0x01]).toOption = some (.stat 1) := by decide
/-- 44_aggregator.md R143, worked example. -/
theorem test_decode_infl :
    (decode .out [0x83, 0x00, 0xFF, 0x7F, 0xFF, 0x7F, 0, 0, 0, 0, 0, 0, 0]).toOption =
      some (.infl 0 32767 32767 0 0 0 0) := by decide
theorem test_decode_log : (decode .out [0x84, 0x05]).toOption = some (.log 5) := by decide
/-- Bytes of a space that are no row of the table are told by name (log entry 6). -/
theorem test_decode_no_row :
    (decode .rx [0x55, 0x55, 0]).toOption = none ∧ (decode .tx [0x55, 0, 0, 0, 0, 0, 0, 0, 0]).toOption = none ∧
    (decode .out [0x85, 0]).toOption = none ∧ (decode .out [0x82]).toOption = none := by decide

/-- The table's numbering: the first byte is the least significant (log entry 5). -/
theorem test_table_words :
    decodeTableWord 16 0x5501 = some (.rxb 0x55) ∧ decodeTableWord 8 0x02 = some (.rxd []) ∧
    decodeTableWord 8 0x10 = some (.joy axesZero) ∧ decodeTableWord 16 0x5555 = some (.frameTlm 0 0 0) ∧
    decodeTableWord 72 0x5555 = some (.frameCmd 0 0 0 0) ∧ decodeTableWord 8 0x84 = some (.log 0) ∧
    decodeTableWord 16 0x0004 = some (.illegal [0x04, 0x00]) := by decide
theorem test_withFetchWord_runs :
    step (State.reset.withFetchWord 16 0x5501) = exec (.rxb 0x55) State.reset := rfl

/-! ### Codec and mixer values (40_codec.md R86 to R91, 44_aggregator.md R126, R127, R130) -/

theorem test_encCmd_V14 : encCmd 1 32767 0x8001 4096 = [0x01, 0xFF, 0x7F, 0x01, 0x80, 0x00, 0x10] := by
  decide
theorem test_decTlm_V16 : decTlm [0x00, 0x80, 0xFF, 0xFF, 0x01, 0x00] = some ⟨0x8000, 0xFFFF, 1⟩ := by
  decide
theorem test_encTlm_V18 : encTlm 100 0xFF38 300 = [0x64, 0x00, 0x38, 0xFF, 0x2C, 0x01] := by decide
theorem test_decCmd_V19 :
    decCmd [0x02, 0x10, 0x27, 0xF0, 0xD8, 0, 0] = some ⟨2, 10000, 0xD8F0, 0⟩ := by decide
theorem test_deg_V10 : deg 32767 = 360 ∧ deg 0x4000 = mkRat 5898240 32767 := by decide +kernel
theorem test_shape_values :
    shape 8192 32767 = 512 ∧ shape 20000 32767 = 7451 ∧ shape 65536 32767 = 262160 ∧
    shape (-32768) 32767 = -32770 ∧ shape 40000 16383 = 29803 ∧ shape (-1023) 32767 = 0 := by decide
theorem test_pct2lim_values :
    pct2lim 1 = 327 ∧ pct2lim 33 = 10813 ∧ pct2lim 99 = 32439 ∧ pct2lim 101 = 32767 := by decide
theorem test_floatOperand_values :
    floatOperand 0x42C80000 = some 100 ∧ floatOperand 0x80000000 = some 0 ∧
    floatOperand 0x3DCCCCCD = some (mkRat 13421773 134217728) ∧
    floatOperand 0x00000001 = some (mkRat 1 (2 ^ 149)) ∧ floatOperand 0x7F7FFFFF = some ((2 ^ 24 - 1 : Int) * 2 ^ 104 : Int) ∧
    floatOperand 0x7F800000 = none ∧ floatOperand 0x7FC00000 = none := by decide +kernel

/-! ### Instructions, one step each -/

/-- V26. -/
theorem test_rxb_completes_frame :
    after (exec (.rxb 0) sevenBytes) (fun t => (t.buf, t.syncst, t.link, t.wdcnt, t.outPort)) =
      some ([], .seeking, true, 500, [.stat 1, .ypr 1 2 3]) := by decide
/-- V23, by bytes. -/
theorem test_rxb_keeps_last :
    after (exec (.rxb 0x12) { State.reset with buf := [0x55] }) (fun t => (t.buf, t.syncst)) =
      some ([0x12], .seeking) := by decide
/-- V28: two frames in one operation. -/
theorem test_rxd_two_frames :
    after (exec (.rxd [0x55, 0x55, 1, 0, 2, 0, 3, 0, 0x55, 0x55, 9, 0, 8, 0, 7, 0]) State.reset)
      (fun t => (t.buf, t.outPort)) = some ([], [.stat 1, .ypr 1 2 3, .ypr 9 8 7]) := by decide
/-- V13: locked one byte early. -/
theorem test_rxd_one_byte_early :
    after (exec (.rxd [0x55, 0x55, 0x55, 1, 0, 2, 0, 3, 0]) State.reset) (fun t => (t.buf, t.outPort)) =
      some ([0], [.stat 1, .ypr 341 512 768]) := by decide
/-- V95. -/
theorem test_rxe_logs : after (exec .rxe sevenBytes) (fun t => (t.buf, t.outPort)) =
    some (sevenBytes.buf, [.log 1]) := by decide
/-- V46, the 500th TICK: expiry first, so the send tick is silent. -/
theorem test_tick_expiry_precedes_send :
    after (exec .tick { online with wdcnt := 1, txcnt := 49 }) (fun t => (t.link, t.wdcnt, t.txcnt, t.outPort)) =
      some (false, 0, 0, [.stat 0]) := by decide
/-- V50: a negative field on the wire. -/
theorem test_tick_sends :
    after (exec .tick { online with txcnt := 49, cmd := { online.cmd with towerH := 0x8001 } })
      (fun t => (t.wdcnt, t.outPort)) = some (499, [.txf [0x55, 0x55, 0, 0, 0, 0, 0, 0x01, 0x80]]) := by
  decide
theorem test_lnko_opens : after (exec .lnko State.reset) (·.lnkopen) = some true := by decide
theorem test_lnkc_closes : after (exec .lnkc online) (fun t => (t.lnkopen, t.link)) = some (false, true) := by
  decide
/-- V52. -/
theorem test_txr_logs :
    [0x09, 0x08, 0x00, 0xFF, 0xC8].map (fun w => after (exec (.txr w) State.reset) (·.outPort)) =
      [some [], some [.log 3], some [.log 3], some [.log 2], some []] := by decide
/-- V60: digital X wins, stick-1 Y is kept. -/
theorem test_joy_drive :
    after (exec (.joy ⟨5000, 0xB1E0, 0, 0, 0, 0, 0x8001, 0⟩) State.reset)
      (fun t => (t.cmd.leftEngine.toInt, t.cmd.rightEngine.toInt, t.dirty)) =
      some (32767, -1938, true) := by decide
/-- V63: both aiming results clamped, Y inverted in exact arithmetic. -/
theorem test_joy_aim :
    after (exec (.joy ⟨0, 0, 0x8000, 0, 0, 0x8000, 0, 0⟩) State.reset)
      (fun t => (t.cmd.towerH.toInt, t.cmd.gunV.toInt, t.cmd.cameraV.toInt)) =
      some (-32767, 32767, 32767) := by decide
/-- V74. -/
theorem test_tdev_tracks :
    after (exec (.tdev 0x42C80000 0xC2340000) (tracking 20 20))
      (fun t => (t.cmd.towerH.toInt, t.cmd.gunV.toInt, t.dirty)) = some (1820, -819, true) := by
  decide +kernel
/-- V73: DEV stored, nothing else, LOG(E_NUM). -/
theorem test_tdev_uncalibrated :
    after (exec (.tdev 0x42C80000 0xC2340000) (tracking 0 0))
      (fun t => (t.dev, t.cmd.towerH, t.dirty, t.outPort)) =
      some (⟨100, -45⟩, 0, false, [.log 4]) := by decide +kernel
/-- V83. -/
theorem test_cdpd_stores :
    after (exec (.cdpd 0x80000000 0x00000001) State.reset) (fun t => (t.cal.x, t.cal.y)) =
      some (0, mkRat 1 (2 ^ 149)) := by decide +kernel
/-- V82. -/
theorem test_cdpd_refuses_infinity :
    after (exec (.cdpd 0xFF800000 0x3F800000) State.reset) (fun t => (t.cal, t.outPort)) =
      some (⟨0, 0⟩, [.log 4]) := by decide +kernel
/-- V69. -/
theorem test_epwr_ceilings :
    after (exec (.epwr 1 99) State.reset) (fun t => (t.liml, t.limr, t.dirty)) = some (327, 32439, false) := by
  decide
/-- V72. -/
theorem test_shot_any_nonzero :
    after (exec (.shot 0x80) State.reset) (fun t => (t.cmd.shot, t.dirty)) = some (1, true) := by decide
/-- V89. -/
theorem test_tsta_track :
    after (exec (.tsta 0xFF) State.reset) (fun t => (t.mode, t.cmd.tag, t.dirty)) =
      some (.track, .position, true) := by decide
/-- 45_mode.md R148, worked example. -/
theorem test_pubp_publishes :
    after (exec .pubp { tracking 1 1 with dirty := true }) (fun t => (t.dirty, t.outPort.map Record.bytes)) =
      some (false, [[0x83, 0, 0, 0, 0, 0, 0, 0, 0, 0, 0, 0, 1]]) := by decide
/-- V86. -/
theorem test_pubp_clean : after (exec .pubp State.reset) (·.outPort) = some [] := by decide
/-- V92: no STAT(0) and no INFL. -/
theorem test_rst_is_silent :
    after (exec .rst { online with dirty := true, txcnt := 7, liml := 3 })
      (fun t => (t.link, t.txcnt, t.liml, t.dirty, t.outPort)) = some (false, 0, 32767, false, []) := by
  decide
/-- V94: nothing appended. -/
theorem test_illegal_logs :
    after (exec (.illegal [0x02, 0x09, 0x55]) sevenBytes) (fun t => (t.buf, t.outPort)) =
      some (sevenBytes.buf, [.log 5]) := by decide
/-- 41_frame_sync.md R104, row 10, as FRAME.TLM. -/
theorem test_frameTlm_publishes :
    after (exec (.frameTlm 1 2 3) State.reset) (fun t => (t.buf, t.link, t.outPort)) =
      some ([], true, [.stat 1, .ypr 1 2 3]) := by decide
theorem test_frameCmd_on_the_wire :
    after (exec (.frameCmd 1 32767 0x8001 4096) State.reset) State.txStream =
      some [0x55, 0x55, 0x01, 0xFF, 0x7F, 0x01, 0x80, 0x00, 0x10] := by decide
theorem test_records_are_emitted :
    after (exec (.txf [1]) State.reset) (·.outPort) = some [.txf [1]] ∧
    after (exec (.ypr 1 2 3) State.reset) (·.outPort) = some [.ypr 1 2 3] ∧
    after (exec (.stat 1) State.reset) (fun t => (t.link, t.outPort)) = some (false, [.stat 1]) ∧
    after (exec (.infl 1 2 3 4 5 6 1) State.reset) (·.outPort) = some [.infl 1 2 3 4 5 6 1] ∧
    after (exec (.log 2) State.reset) (·.outPort) = some [.log 2] := by decide
theorem test_step_idle : step State.reset = .next State.reset := rfl
/-- Bytes on the RX stream that are no whole frame are received (41_frame_sync.md R94, V23). -/
theorem test_step_receives_part_of_a_frame :
    after (step (State.reset.present ⟨.rx, [0x55]⟩)) (fun t => (t.buf, t.outPort)) =
      some ([0x55], []) := by decide
/-- Bytes on the output port that are no record are an illegal word (log entry 6). -/
theorem test_step_no_record_is_illegal :
    after (step (sevenBytes.present ⟨.out, [0x85, 0x00]⟩)) (fun t => (t.buf, t.outPort)) =
      some (sevenBytes.buf, [.log 5]) := by decide

/-! ### Witnesses: for each statement with hypotheses, values that meet them all -/

/-- The invariant holds of a state other than reset: online, one byte held, a frame's worth of inputs. -/
theorem test_witness_Inv : Inv { online with buf := [0x12], liml := 16383 } where
  sync := .inl ⟨rfl, by decide⟩
  cmd := ⟨.inl rfl, by decide, by decide, by decide, by decide, rfl⟩
  range := by decide
  watchdog := by decide
  tag := by decide
  float := ⟨⟨0, by decide⟩, ⟨0, by decide⟩, ⟨0, by decide⟩, ⟨0, by decide⟩⟩

/-- R25 at its boundaries: no byte, one byte, two bytes locked, seven bytes locked. -/
theorem test_witness_SyncInv :
    SyncInv State.reset ∧ SyncInv { State.reset with buf := [0x12] } ∧
    SyncInv { State.reset with buf := [0x55, 0x55], syncst := .locked } ∧ SyncInv sevenBytes :=
  ⟨.inl ⟨rfl, by decide⟩, .inl ⟨rfl, by decide⟩, .inr ⟨rfl, by decide, by decide, by decide⟩,
    .inr ⟨rfl, by decide, by decide, by decide⟩⟩

theorem test_witness_DecodeOfEncode :
    (Instr.rxd [1, 2]).wf = true ∧ (Instr.illegal []).wf = true ∧ (Instr.log 5).wf = true ∧
    (Instr.txf [0x55, 0x55, 1, 2, 3, 4, 5, 6, 7]).wf = true := by decide
theorem test_witness_IllegalWords : legalWord [0x04, 0x00] = false ∧ legalWord [] = false := by decide
theorem test_witness_CodecLengths : (List.replicate 6 (0 : Byte)).length = 6 ∧
    (List.replicate 7 (0 : Byte)).length = 7 := by decide
theorem test_witness_StepRuns :
    ({ State.reset with pending := [⟨.event, [0x04]⟩] }).pending = ⟨.event, [0x04]⟩ :: [] ∧
    decode .event [0x04] = .ok .tick ∧ Instr.tick.wf = true := ⟨rfl, rfl, rfl⟩
theorem test_witness_WhateverIsPresented :
    (State.reset.present ⟨.rx, [0x55]⟩).pending = ⟨.rx, [0x55]⟩ :: [] ∧
    (State.reset.present ⟨.out, [0x85]⟩).pending = ⟨.out, [0x85]⟩ :: [] ∧
    (∃ e, decode .out [0x85] = .error e) ∧ (∃ e, decode .tx [] = .error e) :=
  ⟨rfl, rfl, ⟨_, rfl⟩, ⟨_, rfl⟩⟩
theorem test_witness_Idle : State.reset.pending = [] := rfl
/-- One state and byte for each of the five clauses: empty; one 0x55 with 0x55; one 0x55 with another; locked
on two bytes and on six; locked on seven. -/
theorem test_witness_RxbClauses :
    (State.reset.syncst = .seeking ∧ State.reset.buf = []) ∧
    (({ State.reset with buf := [0x55] }).buf = [0x55] ∧ (0x55 : Byte) = 0x55) ∧
    ¬ ((0x55 : Byte) = 0x55 ∧ (0x12 : Byte) = 0x55) ∧
    (2 ≤ [(0x55 : Byte), 0x55].length ∧ [(0x55 : Byte), 0x55, 1, 0, 2, 0].length ≤ 6) ∧
    (sevenBytes.syncst = .locked ∧ sevenBytes.buf = [0x55, 0x55, 1, 0, 2, 0, 3]) := by decide
/-- Garbage for each clause: none at all, a partial marker inside, and one that ends in 0x55. -/
theorem test_witness_Resynchronisation :
    NoMarkerPair [] ∧ NoMarkerPair [0x55, 0x12] ∧ NoMarkerPair [0x12, 0x55] ∧
    ([] : List Byte).getLast? ≠ some 0x55 ∧ [(0x55 : Byte), 0x12].getLast? ≠ some 0x55 ∧
    [(0x12 : Byte), 0x55].getLast? = some 0x55 := by
  refine ⟨fun k => by simp, fun k => ?_, fun k => ?_, by decide, by decide, by decide⟩
  · match k with
    | 0 => decide
    | 1 => decide
    | k + 2 => simp
  · match k with
    | 0 => decide
    | 1 => decide
    | k + 2 => simp
/-- Both sides of expiry: k = 499 and k = 500 from a freshly armed timer, k = 0 and 1 from the last count. -/
theorem test_witness_Watchdog :
    online.link = true ∧ 0 < online.wdcnt ∧ 499 < online.wdcnt ∧ online.wdcnt ≤ 500 ∧
    0 < ({ online with wdcnt := 1 }).wdcnt ∧ ({ online with wdcnt := 1 }).wdcnt ≤ 1 := by decide
theorem test_witness_ConsecutiveFrames :
    State.reset.syncst = .seeking ∧ State.reset.buf = [] ∧ State.reset.link = false ∧
    [((1 : I16), (1 : I16), (1 : I16), 499), (2, 2, 2, 0)] ≠ [] ∧
    (∀ f ∈ [((1 : I16), (1 : I16), (1 : I16), 499), (2, 2, 2, 0)], f.2.2.2 < 500) := by decide
/-- At both ends of the send count, with the least watchdog that suffices. -/
theorem test_witness_NextSendTick :
    (let s := { online with txcnt := 49, wdcnt := 2 }
     s.lnkopen = true ∧ s.link = true ∧ s.txcnt ≤ 49 ∧ 50 - s.txcnt < s.wdcnt) ∧
    (let s := { online with txcnt := 0, wdcnt := 51 }
     s.lnkopen = true ∧ s.link = true ∧ s.txcnt ≤ 49 ∧ 50 - s.txcnt < s.wdcnt) := by decide
theorem test_witness_OnlineTick :
    Instr.tick.space = .event ∧
    exec .tick { online with txcnt := 49 } =
      .next { online with wdcnt := 499, outPort := [.txf [0x55, 0x55, 0, 0, 0, 0, 0, 0, 0]] } ∧
    Instr.tick.wf = true := ⟨rfl, rfl, rfl⟩
theorem test_witness_WriteResult :
    (8 : Byte).toNat ≤ 8 ∧ (0 : Byte).toNat ≤ 8 ∧ 9 ≤ (9 : Byte).toNat ∧ 9 ≤ (254 : Byte).toNat ∧
    (254 : Byte).toNat ≤ 254 := by decide
theorem test_witness_PowerLimits : 100 ≤ (100 : Byte).toNat := by decide
theorem test_witness_Shape :
    |(1023 : Int)| ≤ 1023 ∧ |(-32767 : Int)| ≤ 32767 ∧ |(1023 : Int)| ^ 3 * (32767 : Nat) < 32767 ^ 3 ∧
    (-5 : Int) ≤ 5 := by decide
/-- The four clauses of TDEV: a non-finite operand; finite ones in Search; in Track with a zero scale; in
Track with a scale. -/
theorem test_witness_Tdev :
    floatOperand 0x7F800000 = none ∧ (∃ x, floatOperand 0x42C80000 = some x) ∧
    State.reset.mode = .search ∧ (tracking 20 0).mode = .track ∧ (tracking 20 0).cal.y = 0 ∧
    (tracking 20 20).mode = .track ∧ (tracking 20 20).cal.x ≠ 0 ∧ (tracking 20 20).cal.y ≠ 0 :=
  ⟨by decide, ⟨100, by decide⟩, rfl, rfl, rfl, rfl, by decide, by decide⟩
theorem test_witness_Cdpd :
    floatOperand 0xFF800000 = none ∧ (∃ x, floatOperand 0x80000000 = some x) ∧
    (∃ x, floatOperand 0x00000001 = some x) := ⟨by decide, ⟨0, by decide⟩, ⟨_, rfl⟩⟩
theorem test_witness_Pubp : State.reset.dirty = false ∧ (State.reset.setDirty).dirty = true := by decide
theorem test_witness_Tsta : (0 : Byte) = 0 ∧ (0xFF : Byte) ≠ 0 := by decide
/-- A state with the invariant that presents SHOT, for the invariant and for the legal records. -/
theorem test_witness_StepKeeps :
    Inv (online.present ⟨.event, [0x14, 0x01]⟩) ∧
    step (online.present ⟨.event, [0x14, 0x01]⟩) = exec (.shot 1) online ∧
    exec (.shot 1) online =
      .next { online with cmd := { online.cmd with shot := 1 }, dirty := true } ∧
    (Instr.shot 1).wf = true :=
  ⟨{ sync := .inl ⟨rfl, by decide⟩
     cmd := ⟨.inl rfl, by decide, by decide, by decide, by decide, rfl⟩
     range := by decide, watchdog := by decide, tag := by decide
     float := ⟨⟨0, by decide⟩, ⟨0, by decide⟩, ⟨0, by decide⟩, ⟨0, by decide⟩⟩ }, rfl, rfl, rfl⟩
/-- Both clauses of DIRTY: an instruction that leaves it clear, and one that finds it set. -/
theorem test_witness_Dirty :
    Instr.lnko ≠ .rst ∧ Instr.lnko ≠ .pubp ∧
    exec .lnko State.reset = .next { State.reset with lnkopen := true } ∧
    ({ State.reset with lnkopen := true }).dirty = false ∧
    exec .lnko State.reset.setDirty = .next { State.reset.setDirty with lnkopen := true } ∧
    State.reset.setDirty.dirty = true := ⟨by decide, by decide, rfl, rfl, rfl, rfl⟩
/-- One instruction for each column of the access table changes the item it may change. -/
theorem test_witness_Writers :
    after (exec (.rxb 0x12) State.reset) (·.buf) ≠ some State.reset.buf ∧
    after (exec .tick online) (·.wdcnt) ≠ some online.wdcnt ∧
    after (exec .tick online) (·.txcnt) ≠ some online.txcnt ∧
    after (exec (.joy ⟨0, 0, 0, 7, 0, 0, 0, 0⟩) State.reset) (·.joy) ≠ some State.reset.joy ∧
    after (exec (.tsta 1) State.reset) (·.mode) ≠ some State.reset.mode := by decide
/-- Axes 3 and 4 and DEV differ, and the outcome is a next state. -/
theorem test_witness_NeverRead :
    exec .lnko { State.reset with joy := { State.reset.joy with a3 := 7, a4 := 9 }, dev := ⟨1, 2⟩ } =
      .next { State.reset with
        joy := { State.reset.joy with a3 := 7, a4 := 9 }, dev := ⟨1, 2⟩, lnkopen := true } := rfl
theorem test_witness_TxfFrame : (Record.txf [0x55, 0x55, 0, 0, 0, 0, 0, 0, 0]).wf = true := by decide
theorem test_witness_Reception :
    exec (.rxb 0x12) State.reset = .next { State.reset with buf := [0x12] } := rfl

end Sys2Proof.Tests
end

section
/-! Scope of the block (spec/00_scope.md): what rounding toward zero is, that reception and the command side
are independent, that nothing stops the block, and what becomes of whatever is presented to it. -/

namespace Sys2Proof.Machine

/-! ### Rounding toward zero (R12) -/

/-- On a rational that is not negative, rounding toward zero is the floor. -/
theorem trunc_of_nonneg {q : Rat} (h : 0 ≤ q) : trunc q = ⌊q⌋ := by
  rw [trunc, Rat.floor_def', Int.tdiv_eq_ediv_of_nonneg (Rat.num_nonneg.mpr h)]

/-- Rounding toward zero is odd. -/
theorem trunc_neg (q : Rat) : trunc (-q) = -trunc q := by
  simp [trunc, Int.neg_tdiv]

/-- Settles O30: the floor on the side that is not negative, carried to the other by oddness. -/
theorem truncRoundsTowardZero : Obligations.TruncRoundsTowardZero := by
  intro q
  obtain hneg | rfl | hpos := lt_trichotomy q 0
  · calc trunc q = -trunc (-q) := by rw [trunc_neg, neg_neg]
      _ = -⌊|q|⌋ := by rw [trunc_of_nonneg (neg_nonneg.mpr hneg.le), abs_of_neg hneg]
      _ = (SignType.sign q : Int) * ⌊|q|⌋ := by simp [sign_neg hneg]
  · simp [trunc]
  · calc trunc q = ⌊|q|⌋ := by rw [trunc_of_nonneg hpos.le, abs_of_pos hpos]
      _ = (SignType.sign q : Int) * ⌊|q|⌋ := by simp [sign_pos hpos]

/-! ### Reception and the command side (R2) -/

/-- `s` with every register of the aggregator (44_aggregator.md R124), the Mode State Machine (45_mode.md R147)
and the transmitter (43_transmitter.md R114) taken from `u`. -/
def State.withCommandSide (s u : State) : State :=
  { s with joy := u.joy, dev := u.dev, cal := u.cal, liml := u.liml, limr := u.limr, mode := u.mode,
           cmd := u.cmd, dirty := u.dirty, lnkopen := u.lnkopen, txcnt := u.txcnt }

@[simp] theorem State.withCommandSide_buf (s u : State) : (s.withCommandSide u).buf = s.buf := rfl
@[simp] theorem State.withCommandSide_syncst (s u : State) :
    (s.withCommandSide u).syncst = s.syncst := rfl
theorem State.bufAppend_withCommandSide (s u : State) (b : Byte) :
    (s.withCommandSide u).bufAppend b = (s.bufAppend b).withCommandSide u := rfl

/-- The Seeking part of a pass reads BUF and SYNCST only. -/
theorem syncSeek_withCommandSide (s u : State) :
    syncSeek (s.withCommandSide u) = (syncSeek s).withCommandSide u := by
  unfold syncSeek
  cases hs : s.syncst with
  | locked => simp [hs]
  | seeking =>
    cases hf : find2 Config.marker0 Config.marker1 s.buf <;>
      simp only [State.withCommandSide_syncst, State.withCommandSide_buf, hs, hf] <;>
      split <;> rfl

/-- The Locked part, on a whole frame, reads BUF and LINK only. -/
theorem syncFrame_withCommandSide (s u : State) (h : 8 ≤ s.buf.length) :
    syncFrame (s.withCommandSide u) = (syncFrame s).withCommandSide u := by
  obtain ⟨_, _, _, _, _, _, _, _, _, hb⟩ := eight_bytes h
  rw [syncFrame_eq _ _ _ _ _ _ _ _ _ _ hb,
    syncFrame_eq (s.withCommandSide u) _ _ _ _ _ _ _ _ _ hb]
  rfl

/-- SYNC neither reads nor writes the command side, pass by pass. -/
theorem sync_withCommandSide (s u : State) :
    sync (s.withCommandSide u) = (sync s).withCommandSide u := by
  refine sync_induction (P := fun s t => sync (s.withCommandSide u) = t.withCommandSide u)
    (fun s hlast => ?_) (fun s t hlocked h8 ih => ?_) s
  · rw [sync_eq, syncSeek_withCommandSide, State.withCommandSide_syncst, State.withCommandSide_buf,
      if_neg hlast]
  · rw [sync_eq, syncSeek_withCommandSide, State.withCommandSide_syncst, State.withCommandSide_buf,
      if_pos ⟨hlocked, h8⟩, syncFrame_withCommandSide _ _ h8, ih]

/-- RXB commutes with any change of the command side. -/
theorem execRxb_withCommandSide {b : Byte} {s t : State} (u : State)
    (h : exec (.rxb b) s = .next t) :
    exec (.rxb b) (s.withCommandSide u) = .next (t.withCommandSide u) := by
  have ht : sync (s.bufAppend b) = t := Host.Outcome.next.inj h
  change Host.Outcome.next (sync ((s.withCommandSide u).bufAppend b)) = _
  rw [State.bufAppend_withCommandSide, sync_withCommandSide, ht]

/-- Settles O53: the changed registers are the command side of the changed state. -/
theorem receptionIgnoresTheCommandSide : Obligations.ReceptionIgnoresTheCommandSide := by
  intro b s t j dev cal ll lr m c d o k h
  exact execRxb_withCommandSide
    { s with joy := j, dev := dev, cal := cal, liml := ll, limr := lr, mode := m, cmd := c, dirty := d,
             lnkopen := o, txcnt := k } h

/-! ### Nothing stops the block (R6, 60_exceptions.md R175) -/

/-- TXR answers a next state, whatever the transport reported. -/
theorem execTxr_next (w : Byte) (s : State) : ∃ t, execTxr w s = .next t := by
  unfold execTxr
  split
  · exact ⟨_, raise_eq .wrFail s⟩
  · split
    · exact ⟨_, raise_eq .shortWr s⟩
    · exact ⟨s, rfl⟩

/-- TDEV answers a next state: a non-finite operand and a zero scale are logged. -/
theorem execTdev_next (dx dy : Word32) (s : State) : ∃ t, execTdev dx dy s = .next t := by
  unfold execTdev
  split
  · dsimp only
    split
    · exact ⟨_, rfl⟩
    · split
      · exact ⟨_, raise_eq .num _⟩
      · exact ⟨_, rfl⟩
  · exact ⟨_, raise_eq .num s⟩

/-- CDPD answers a next state: a non-finite operand is logged. -/
theorem execCdpd_next (sx sy : Word32) (s : State) : ∃ t, execCdpd sx sy s = .next t := by
  unfold execCdpd
  split
  · exact ⟨_, rfl⟩
  · exact ⟨_, raise_eq .num s⟩

/-- PUBP answers a next state, dirty or not. -/
theorem execPubp_next (s : State) : ∃ t, execPubp s = .next t := by
  unfold execPubp
  split
  · exact ⟨s, rfl⟩
  · exact ⟨_, rfl⟩

/-- Every instruction answers a next state: four have several outcomes, all others one. -/
theorem exec_next (i : Instr) (s : State) : ∃ t, exec i s = .next t := by
  cases i with
  | txr w => exact execTxr_next w s
  | tdev dx dy => exact execTdev_next dx dy s
  | cdpd sx sy => exact execCdpd_next sx sy s
  | pubp => exact execPubp_next s
  | rxe | illegal _ => exact ⟨_, raise_eq _ s⟩
  | rxb _ | rxd _ | tick | lnko | lnkc | joy _ | epwr _ _ | shot _ | tsta _ | rst
  | frameTlm _ _ _ | frameCmd _ _ _ _ | txf _ | ypr _ _ _ | stat _ | infl _ _ _ _ _ _ _ | log _ =>
    exact ⟨_, rfl⟩

/-- Every step answers a next state: it is idle, or runs an instruction. -/
theorem step_next (s : State) : ∃ t, step s = .next t := by
  cases hp : s.pending with
  | nil => exact ⟨s, step_of_nothing hp⟩
  | cons item rest =>
    rw [step_of_pending hp]
    exact exec_next _ _

/-- Settles O13. -/
theorem nothingStopsTheBlock : Obligations.NothingStopsTheBlock := ⟨exec_next, step_next⟩

/-! ### The frame and record rows (30_encoding.md R64, R78) -/

/-- Settles O46: the arm of each of the six rows is one `emit`, which is the record update stated. -/
theorem recordRowsAreEmitted : Obligations.RecordRowsAreEmitted :=
  fun _ _ _ _ _ _ _ _ _ => ⟨rfl, rfl, rfl, rfl, rfl, rfl⟩

/-! ### Whatever is presented (R6, 20_memory.md R45, R49) -/

/-- The bytes of a 16-bit field are the ones it was assembled from (30_encoding.md R67). -/
theorem i16Bytes_i16OfBytes (lo hi : Byte) : i16Bytes (i16OfBytes lo hi) = [lo, hi] := by
  have hlo : lo8 (i16OfBytes lo hi) = lo := by
    unfold lo8 i16OfBytes; exact BitVec.extractLsb'_append_eq_right
  have hhi : hi8 (i16OfBytes lo hi) = hi := by
    unfold hi8 i16OfBytes; exact BitVec.extractLsb'_append_eq_left
  rw [i16Bytes, hlo, hhi]

/-- What decodes to a telemetry frame is the marker and the encoding of its three angles (R63). -/
theorem decodeTelemetryFrame_some {w : List Byte} {i : Instr} (h : decodeTelemetryFrame w = some i) :
    ∃ y p r, i = .frameTlm y p r ∧ w = Config.marker ++ encTlm y p r := by
  unfold decodeTelemetryFrame at h
  split at h
  · rename_i m0 m1 y0 y1 p0 p1 r0 r1
    split at h
    · rename_i hm
      obtain ⟨rfl, rfl⟩ := hm
      refine ⟨_, _, _, (Option.some.inj h).symm, ?_⟩
      simp [Config.marker, encTlm, i16Bytes_i16OfBytes]
    · cases h
  · cases h

/-- An item of the RX stream is received byte by byte, whether or not it is a whole frame (R94, R99). -/
theorem exec_decodeItem_rx (w : List Byte) (s : State) :
    exec (decodeItem ⟨.rx, w⟩) s = exec (.rxd w) s := by
  cases h : decodeTelemetryFrame w with
  | none => simp [decodeItem, decode, h]
  | some i =>
    obtain ⟨y, p, r, rfl, rfl⟩ := decodeTelemetryFrame_some h
    have hi : decodeItem ⟨.rx, Config.marker ++ encTlm y p r⟩ = .frameTlm y p r := by
      simp [decodeItem, decode, h]
    rw [hi]
    rfl

/-- An item of an output space that is no row of the table is an illegal word (log entry 6). -/
theorem decodeItem_of_error {item : Item} {e : DecodeError} (hs : item.space = .tx ∨ item.space = .out)
    (he : decode item.space item.bytes = .error e) : decodeItem item = .illegal item.bytes := by
  obtain hok | ⟨_, -, ⟨hrx, -⟩ | ⟨-, hill⟩⟩ := decodeItem_cases item
  · rw [he] at hok; cases hok
  · rw [hrx] at hs; simp at hs
  · exact hill

/-- Settles O55, space by space. -/
theorem whateverIsPresentedHasItsEffect : Obligations.WhateverIsPresentedHasItsEffect := by
  rintro s ⟨space, w⟩ rest hp
  rw [step_of_pending hp]
  refine ⟨?event, ?rx, ?output⟩
  case event => rintro rfl; rfl
  case rx => rintro rfl; exact exec_decodeItem_rx w _
  case output =>
    rintro hs ⟨e, he⟩
    rw [decodeItem_of_error hs he]
    exact raise_eq .illOp _

end Sys2Proof.Machine
end

section
/-! Reception as a parse of the stream (spec/41_frame_sync.md R95, R97): the frames SYNC finds, the gaps between
them, and R25 (spec/10_state.md) for what it leaves. -/

namespace Sys2Proof.Machine

/-! ### The frames of the stream (41_frame_sync.md R94, R95) -/

/-- A Locked buffer begins with the marker: the part of R25 that appending bytes keeps. -/
abbrev LockedOnMarker (s : State) : Prop := s.syncst = .locked → s.buf.take 2 = [0x55, 0x55]

/-- Appending bytes to a state R25 allows leaves a Locked buffer beginning with the marker. -/
theorem lockedOnMarker_append {s : State} (h : SyncInv s) (d : List Byte) :
    LockedOnMarker { s with buf := s.buf ++ d } := by
  intro (hlocked : s.syncst = .locked)
  obtain ⟨hseek, -⟩ | ⟨-, hlen, -, hm⟩ := h
  · rw [hseek] at hlocked; cases hlocked
  · exact (List.take_append_of_le_length hlen).trans hm

/-- At most one byte holds no pair. -/
theorem noMarkerPair_of_length_le_one {g : List Byte} (h : g.length ≤ 1) : NoMarkerPair g := by
  rintro k ⟨-, hk⟩
  have := (List.getElem?_eq_some_iff.mp hk).1
  omega

/-- Before the first pair, with the pair's own first byte, there is none. -/
theorem noMarkerPair_before_find2 {l rest : List Byte} {i : Nat} (h : find2 0x55 0x55 l = some i)
    (hd : l.drop i = 0x55 :: 0x55 :: rest) : NoMarkerPair (l.take i ++ [0x55]) := by
  have hpre : l.take i ++ [0x55] = l.take (i + 1) := by
    have : l[i]? = some 0x55 := by simpa [hd] using (List.getElem?_drop (xs := l) (i := i) (j := 0)).symm
    rw [List.take_add_one, this]; rfl
  rw [hpre]
  rintro k ⟨h0, h1⟩
  simp only [List.getElem?_take, Option.ite_none_right_eq_some] at h0 h1
  exact (find2_some h).2 k (by omega) ⟨h0.2, h1.2⟩

/-- The Seeking part drops a gap without a pair, none with what follows it either, and leaves a marker in
front or at most one byte. -/
theorem syncSeek_gap (s : State) (hs : LockedOnMarker s) :
    ∃ gap, s.buf = gap ++ (syncSeek s).buf ∧ NoMarkerPair (gap ++ (syncSeek s).buf.take 1) ∧
      LockedOnMarker (syncSeek s) ∧
      ((syncSeek s).syncst = .seeking → (syncSeek s).buf.length ≤ 1) ∧
      syncSeek s = { s with buf := (syncSeek s).buf, syncst := (syncSeek s).syncst } := by
  have short (l : List Byte) : NoMarkerPair ([] ++ l.take 1) :=
    noMarkerPair_of_length_le_one (by simp)
  obtain ⟨hlocked, h⟩ | ⟨hseek, hlt, h⟩ | ⟨hseek, hle, hf, h⟩ | ⟨i, rest, hseek, hf, hd, h⟩ :=
    syncSeek_cases s <;> rw [h]
  · exact ⟨[], rfl, short _, hs, by simp [hlocked], rfl⟩
  · exact ⟨[], rfl, short _, hs, fun _ => by omega, rfl⟩
  · have hlast : (s.buf.drop (s.buf.length - 1)).length = 1 := by simp; omega
    refine ⟨s.buf.take (s.buf.length - 1), (List.take_append_drop _ _).symm, ?_, by simp [hseek],
      fun _ => hlast.le, rfl⟩
    rw [List.take_of_length_le hlast.le, List.take_append_drop]
    exact find2_none hf
  · exact ⟨s.buf.take i, by rw [← hd, List.take_append_drop], noMarkerPair_before_find2 hf hd,
      fun _ => rfl, by simp, rfl⟩

/-- What reception makes of a buffer: `frames` found in `s.buf`, each after its gap, then a last gap, and the
rest still held in `t`; published, and the watchdog armed, if there is a frame (R95). -/
structure Decodes (s t : State) (frames : List (List Byte × I16 × I16 × I16)) (gap : List Byte) :
    Prop where
  /-- Every byte is accounted for. -/
  bytes : s.buf =
    (frames.flatMap fun f => f.1 ++ [0x55, 0x55] ++ encTlm f.2.1 f.2.2.1 f.2.2.2) ++ gap ++ t.buf
  /-- Each frame's marker is the first pair there is. -/
  gaps : ∀ f ∈ frames, NoMarkerPair (f.1 ++ [0x55])
  /-- There is no pair before the bytes held. -/
  lastGap : NoMarkerPair (gap ++ t.buf.take 1)
  /-- R25. -/
  syncInv : SyncInv t
  /-- What is written. -/
  state : t = { s with
    buf := t.buf, syncst := t.syncst
    wdcnt := if frames = [] then s.wdcnt else 500
    link := if frames = [] then s.link else true
    outPort := s.outPort ++ (if frames = [] ∨ s.link = true then [] else [.stat 0x01]) ++
      frames.map fun f => .ypr f.2.1 f.2.2.1 f.2.2.2 }

/-- The last pass finds no frame. -/
theorem decodes_last (s : State) (hs : LockedOnMarker s)
    (hlast : ¬ ((syncSeek s).syncst = .locked ∧ 8 ≤ (syncSeek s).buf.length)) :
    ∃ gap, Decodes s (syncSeek s) [] gap := by
  obtain ⟨gap, hbuf, hgap, hmarker, hseek, hstate⟩ := syncSeek_gap s hs
  refine ⟨gap, by simpa using hbuf, by simp, hgap, ?_, by simpa using hstate⟩
  cases hst : (syncSeek s).syncst with
  | seeking => exact .inl ⟨hst, hseek hst⟩
  | locked =>
    have hm := hmarker hst
    have h2 : 2 ≤ (syncSeek s).buf.length := by
      simpa using (congrArg List.length hm).symm.le
    exact .inr ⟨hst, h2, by simp [hst] at hlast; omega, hm⟩

/-- The frame of one pass comes before the frames of the passes after it. -/
theorem decodes_frame {s t : State} (hs : LockedOnMarker s) (hlocked : (syncSeek s).syncst = .locked)
    (h8 : 8 ≤ (syncSeek s).buf.length)
    (ih : ∃ frames gap, Decodes (syncFrame (syncSeek s)) t frames gap) :
    ∃ frames gap, Decodes s t frames gap := by
  obtain ⟨gap, hbuf, hgap, hmarker, -, hstate⟩ := syncSeek_gap s hs
  obtain ⟨m0, m1, p0, p1, p2, p3, p4, p5, rest, hb⟩ := eight_bytes h8
  obtain ⟨rfl, rfl⟩ : m0 = 0x55 ∧ m1 = 0x55 := by simpa [hb] using hmarker hlocked
  obtain ⟨frames, gap', ih⟩ := ih
  rw [syncFrame_eq _ _ _ _ _ _ _ _ _ _ hb] at ih
  refine ⟨(gap, i16OfBytes p0 p1, i16OfBytes p2 p3, i16OfBytes p4 p5) :: frames, gap', ?bytes, ?gaps,
    ih.lastGap, ih.syncInv, ?state⟩
  case bytes =>
    have hrest := ih.bytes
    simp only at hrest
    rw [hbuf, hb, hrest]
    simp [encTlm, i16Bytes_i16OfBytes]
  case gaps =>
    rw [List.forall_mem_cons]
    exact ⟨by simpa [hb] using hgap, ih.gaps⟩
  case state =>
    rw [ih.state, hstate]
    simp

/-- SYNC decodes the buffer frame by frame (R95). -/
theorem sync_decodes (s : State) (hs : LockedOnMarker s) :
    ∃ frames gap, Decodes s (sync s) frames gap :=
  sync_induction (P := fun s t => LockedOnMarker s → ∃ frames gap, Decodes s t frames gap)
    (fun s hlast hs => ⟨[], decodes_last s hs hlast⟩)
    (fun s _ hlocked h8 ih hs => decodes_frame hs hlocked h8 (ih fun h => by
      obtain ⟨_, _, _, _, _, _, _, _, _, hb⟩ := eight_bytes h8
      rw [syncFrame_eq _ _ _ _ _ _ _ _ _ _ hb] at h
      cases h))
    s hs

/-- Each frame takes at least its eight bytes of the stream. -/
theorem length_frames_le (frames : List (List Byte × I16 × I16 × I16)) :
    8 * frames.length ≤
      (frames.flatMap fun f => f.1 ++ [0x55, 0x55] ++ encTlm f.2.1 f.2.2.1 f.2.2.2).length := by
  induction frames with
  | nil => simp
  | cons f frames ih =>
    simp only [List.flatMap_cons, List.length_append, List.length_cons, encTlm, i16Bytes] at ih ⊢
    simp only [List.length_nil]
    omega

/-- R25 bounds what is held between operations. -/
theorem SyncInv.length_le {s : State} (h : SyncInv s) : s.buf.length ≤ 7 := by
  obtain ⟨-, h⟩ | ⟨-, -, h, -⟩ := h <;> omega

/-- Settles O54: RXD is SYNC on the bytes held and received, of which at most seven were held. -/
theorem rxdDecodesTheStreamFrameByFrame : Obligations.RxdDecodesTheStreamFrameByFrame := by
  intro d s hs
  obtain ⟨frames, gap, h⟩ := sync_decodes _ (lockedOnMarker_append hs d)
  have hexec : exec (.rxd d) s = .next (sync { s with buf := s.buf ++ d }) := by
    rw [← State.bufAppendAll_eq]; rfl
  have hbytes := h.bytes
  refine ⟨_, frames, gap, hexec, h.syncInv, hbytes, h.gaps, h.lastGap, ?_, h.state⟩
  have hlen := congrArg List.length hbytes
  have hframes := length_frames_le frames
  have hheld := SyncInv.length_le hs
  simp only [List.length_append] at hlen hframes
  omega

end Sys2Proof.Machine
end

section
/-! What each instruction can write (spec/10_state.md R40), and what follows from that: the access table, the
promise of DIRTY, the invariant, and the registers no instruction reads. -/

namespace Sys2Proof.Machine

/-! ### The result gate (44_aggregator.md R131, R137, R139) -/

/-- What the gated writes of JOY and TDEV make of CMD `c` and DIRTY `d`. -/
structure GatedWrite (c : Command) (d : Bool) (c' : Command) (d' : Bool) : Prop where
  /-- The fire flag is SHOT's. -/
  shot : c'.shot = c.shot
  /-- The tag is TSTA's (R29). -/
  tag : c'.tag = c.tag
  /-- What is written is clamped (R28). -/
  inv : CmdInv c → CmdInv c'
  /-- A change is marked (R137). -/
  marked : d' = false → c' = c
  /-- DIRTY is never cleared (R137). -/
  sticky : d = true → d' = true

theorem GatedWrite.refl (c : Command) (d : Bool) : GatedWrite c d c d :=
  ⟨rfl, rfl, id, fun _ => rfl, id⟩

theorem GatedWrite.trans {c₁ c₂ c₃ : Command} {d₁ d₂ d₃ : Bool} (h : GatedWrite c₁ d₁ c₂ d₂)
    (h' : GatedWrite c₂ d₂ c₃ d₃) : GatedWrite c₁ d₁ c₃ d₃ where
  shot := h'.shot.trans h.shot
  tag := h'.tag.trans h.tag
  inv := h'.inv ∘ h.inv
  marked hd := by
    have hd₂ : d₂ = false := Bool.eq_false_iff.mpr fun h₂ => by simp [h'.sticky h₂] at hd
    exact (h'.marked hd).trans (h.marked hd₂)
  sticky := h'.sticky ∘ h.sticky

/-- What is stored is in range (R28). -/
theorem inCmdRange_toCmd (x : Int) : InCmdRange (toCmd x) := by
  unfold InCmdRange
  rw [toCmd_toInt]
  exact clampCmd_range x

/-- Storing aiming values in range is a gated write that leaves the engines. -/
theorem storeAim_gated {h v : I16} (hh : InCmdRange h) (hv : InCmdRange v) (s : State) :
    ∃ c d, storeAim (h, v) s = { s with cmd := c, dirty := d } ∧ GatedWrite s.cmd s.dirty c d ∧
      c.leftEngine = s.cmd.leftEngine ∧ c.rightEngine = s.cmd.rightEngine := by
  refine ⟨_, _, storeAim_eq h v s, ⟨rfl, rfl, ?_, fun hd => ?_, fun hd => by simp [hd]⟩, rfl, rfl⟩
  · rintro ⟨hshot, hl, hr, -, -, -⟩
    exact ⟨hshot, hl, hr, hh, hv, rfl⟩
  · simp only [Bool.or_eq_false_iff, bne_eq_false_iff_eq] at hd
    obtain ⟨-, ⟨rfl, rfl⟩, hcam⟩ := hd
    exact congrArg (fun v => { s.cmd with cameraV := v }) hcam

/-- Storing engine values in range is a gated write. -/
theorem storeDrive_gated {l r : I16} (hl : InCmdRange l) (hr : InCmdRange r) (s : State) :
    ∃ c d, storeDrive (l, r) s = { s with cmd := c, dirty := d } ∧ GatedWrite s.cmd s.dirty c d := by
  refine ⟨_, _, storeDrive_eq l r s, rfl, rfl, ?_, fun hd => ?_, fun hd => by simp [hd]⟩
  · rintro ⟨hshot, -, -, hh, hv, hcam⟩
    exact ⟨hshot, hl, hr, hh, hv, hcam⟩
  · simp only [Bool.or_eq_false_iff, bne_eq_false_iff_eq] at hd
    obtain ⟨-, rfl, rfl⟩ := hd
    rfl

/-- The aiming part of JOY, gate closed or open. -/
theorem joyAim_gated (a : Axes) (s : State) :
    ∃ c d, joyAim a s = { s with cmd := c, dirty := d } ∧ GatedWrite s.cmd s.dirty c d := by
  unfold joyAim
  split
  · obtain ⟨c, d, h, hg, -, -⟩ := storeAim_gated (inCmdRange_toCmd _) (inCmdRange_toCmd _) s
    exact ⟨c, d, h, hg⟩
  · exact ⟨s.cmd, s.dirty, rfl, .refl _ _⟩

/-- The drive part of JOY, gate closed or open. -/
theorem joyDrive_gated (a : Axes) (s : State) :
    ∃ c d, joyDrive a s = { s with cmd := c, dirty := d } ∧ GatedWrite s.cmd s.dirty c d := by
  unfold joyDrive
  split
  · exact storeDrive_gated (inCmdRange_toCmd _) (inCmdRange_toCmd _) s
  · exact ⟨s.cmd, s.dirty, rfl, .refl _ _⟩

/-! ### What an instruction can write (10_state.md R40) -/

/-- The instructions that receive bytes: RXB, RXD, and the frame that is RXD's other form (log entry 4). -/
abbrev IsReception (i : Instr) : Prop :=
  (∃ b, i = .rxb b) ∨ (∃ d, i = .rxd d) ∨ (∃ y p r, i = .frameTlm y p r)

/-- The states an instruction can lead to from `s`, by the shape of the update. -/
inductive Effect (s : State) : Instr → State → Prop where
  /-- SYNC on the bytes held and received. -/
  | receive {i : Instr} (d : List Byte) (hi : IsReception i) :
      Effect s i (sync { s with buf := s.buf ++ d })
  /-- Records and nothing else: RXE, TXR, ILLEGAL, the frame and record rows, refused operands. -/
  | report (i : Instr) (rs : List Record) : Effect s i { s with outPort := s.outPort ++ rs }
  /-- Both timers. -/
  | tick (rs : List Record) : Effect s .tick { s with
      wdcnt := s.wdcnt - 1, link := if s.wdcnt = 1 then false else s.link
      txcnt := if s.txcnt + 1 = 50 then 0 else s.txcnt + 1, outPort := s.outPort ++ rs }
  | lnko : Effect s .lnko { s with lnkopen := true }
  | lnkc : Effect s .lnkc { s with lnkopen := false }
  | joy (a : Axes) {c : Command} {d : Bool} (hg : GatedWrite s.cmd s.dirty c d) :
      Effect s (.joy a) { s with cmd := c, dirty := d, joy := a }
  /-- DEV, and in Track the recompute of the aiming fields or an E_NUM. -/
  | tdev {dx dy : Word32} {x y : Rat} {c : Command} {d : Bool} (rs : List Record)
      (hx : floatOperand dx = some x) (hy : floatOperand dy = some y)
      (hg : GatedWrite s.cmd s.dirty c d) (hl : c.leftEngine = s.cmd.leftEngine)
      (hr : c.rightEngine = s.cmd.rightEngine) :
      Effect s (.tdev dx dy)
        { s with dev := ⟨x, y⟩, cmd := c, dirty := d, outPort := s.outPort ++ rs }
  | cdpd {sx sy : Word32} {x y : Rat} (hx : floatOperand sx = some x) (hy : floatOperand sy = some y) :
      Effect s (.cdpd sx sy) { s with cal := ⟨x, y⟩ }
  | epwr (pl pr : Byte) : Effect s (.epwr pl pr) { s with liml := pct2lim pl, limr := pct2lim pr }
  | shot (f : Byte) : Effect s (.shot f) { s with
      cmd := { s.cmd with shot := if boolOperand f then 1 else 0 }, dirty := true }
  | tsta (t : Byte) : Effect s (.tsta t) { s with
      mode := modeOfStatus (boolOperand t)
      cmd := { s.cmd with tag := (modeOfStatus (boolOperand t)).tag }, dirty := true }
  | pubp (rs : List Record) : Effect s .pubp { s with dirty := false, outPort := s.outPort ++ rs }
  | rst : Effect s .rst { State.reset with pending := s.pending, outPort := s.outPort }

/-- An instruction that does nothing reports nothing. -/
theorem Effect.nothing (i : Instr) (s : State) : Effect s i s := by
  simpa using Effect.report (s := s) i []

/-- Reception is SYNC on one longer buffer (41_frame_sync.md R97). -/
theorem Effect.receiveAll {i : Instr} (s : State) (d : List Byte) (hi : IsReception i) :
    Effect s i (sync (s.bufAppendAll d)) := by
  rw [State.bufAppendAll_eq]
  exact .receive d hi

/-- TICK, of which the two steps are known. -/
theorem execTick_effect (s : State) : Effect s .tick (txStep (wdStep s)) := by
  rw [txStep_eq, wdStep_eq]
  simpa using Effect.tick (s := s) _

/-- TXR reports or does nothing. -/
theorem execTxr_effect (w : Byte) (s : State) : ∃ t, execTxr w s = .next t ∧ Effect s (.txr w) t := by
  unfold execTxr
  split
  · exact ⟨_, raise_eq .wrFail s, .report _ _⟩
  · split
    · exact ⟨_, raise_eq .shortWr s, .report _ _⟩
    · exact ⟨s, rfl, .nothing _ s⟩

/-- JOY: two gated writes, then the last-seen axes. -/
theorem execJoy_effect (a : Axes) (s : State) :
    Effect s (.joy a) { joyDrive a (joyAim a s) with joy := a } := by
  obtain ⟨c, d, haim, hg⟩ := joyAim_gated a s
  obtain ⟨c', d', hdrive, hg'⟩ := joyDrive_gated a (joyAim a s)
  rw [hdrive, haim]
  rw [haim] at hg'
  exact .joy a (hg.trans hg')

/-- TDEV: refused, or DEV with what the mode and the scale make of it. -/
theorem execTdev_effect (dx dy : Word32) (s : State) :
    ∃ t, execTdev dx dy s = .next t ∧ Effect s (.tdev dx dy) t := by
  unfold execTdev
  split
  · rename_i x y hx hy
    dsimp only
    split
    · exact ⟨_, rfl, by simpa using Effect.tdev (s := s) [] hx hy (.refl s.cmd s.dirty) rfl rfl⟩
    · split
      · exact ⟨_, raise_eq .num _, .tdev [.log ErrorClass.num.code] hx hy (.refl s.cmd s.dirty) rfl rfl⟩
      · obtain ⟨c, d, h, hg, hl, hr⟩ := storeAim_gated (inCmdRange_toCmd _) (inCmdRange_toCmd _)
          { s with dev := ⟨x, y⟩ }
        exact ⟨_, congrArg _ h, by simpa using Effect.tdev (s := s) [] hx hy hg hl hr⟩
  · exact ⟨_, raise_eq .num s, .report _ _⟩

/-- CDPD: refused, or CAL. -/
theorem execCdpd_effect (sx sy : Word32) (s : State) :
    ∃ t, execCdpd sx sy s = .next t ∧ Effect s (.cdpd sx sy) t := by
  unfold execCdpd
  split
  · rename_i hx hy
    exact ⟨_, rfl, .cdpd hx hy⟩
  · exact ⟨_, raise_eq .num s, .report _ _⟩

/-- PUBP: nothing, or the publication. -/
theorem execPubp_effect (s : State) : ∃ t, execPubp s = .next t ∧ Effect s .pubp t := by
  unfold execPubp
  split
  · exact ⟨s, rfl, .nothing _ s⟩
  · exact ⟨_, rfl, .pubp [s.cmd.record]⟩

/-- Every instruction answers a next state, one of those its effect allows. -/
theorem exec_effect (i : Instr) (s : State) : ∃ t, exec i s = .next t ∧ Effect s i t := by
  cases i with
  | rxb b => exact ⟨_, rfl, .receive [b] (.inl ⟨b, rfl⟩)⟩
  | rxd d => exact ⟨_, rfl, .receiveAll s d (.inr (.inl ⟨d, rfl⟩))⟩
  | frameTlm y p r => exact ⟨_, rfl, .receiveAll s _ (.inr (.inr ⟨y, p, r, rfl⟩))⟩
  | tick => exact ⟨_, rfl, execTick_effect s⟩
  | lnko => exact ⟨_, rfl, .lnko⟩
  | lnkc => exact ⟨_, rfl, .lnkc⟩
  | txr w => exact execTxr_effect w s
  | joy a => exact ⟨_, rfl, execJoy_effect a s⟩
  | tdev dx dy => exact execTdev_effect dx dy s
  | cdpd sx sy => exact execCdpd_effect sx sy s
  | epwr pl pr => exact ⟨_, rfl, .epwr pl pr⟩
  | shot f => exact ⟨_, rfl, .shot f⟩
  | tsta t => exact ⟨_, rfl, .tsta t⟩
  | pubp => exact execPubp_effect s
  | rst => exact ⟨_, rfl, .rst⟩
  | rxe | illegal _ | frameCmd _ _ _ _ | txf _ | ypr _ _ _ | stat _ | infl _ _ _ _ _ _ _ | log _ =>
    exact ⟨_, rfl, .report _ [_]⟩

/-- The inversion: what an instruction answers is one of the states its effect allows. -/
theorem effect_of_exec {i : Instr} {s t : State} (h : exec i s = .next t) : Effect s i t := by
  obtain ⟨u, hu, he⟩ := exec_effect i s
  obtain rfl : t = u := Host.Outcome.next.inj (h.symm.trans hu)
  exact he

/-! ### The promise of DIRTY (44_aggregator.md R137) and the access table (10_state.md R40) -/

/-- Settles O50: of the effects that write CMD, RST apart, each sets DIRTY or is gated. -/
theorem noCommandChangeGoesUnmarked : Obligations.NoCommandChangeGoesUnmarked := by
  intro i s t hrst h
  cases effect_of_exec h with
  | receive d hi => rw [sync_writes]; exact ⟨fun _ => rfl, fun _ => id⟩
  | report | tick | lnko | lnkc | cdpd | epwr => exact ⟨fun _ => rfl, fun _ => id⟩
  | joy a hg => exact ⟨hg.marked, fun _ => hg.sticky⟩
  | tdev rs hx hy hg hl hr => exact ⟨hg.marked, fun _ => hg.sticky⟩
  | shot | tsta => exact ⟨nofun, fun _ _ => rfl⟩
  | pubp => exact ⟨fun _ => rfl, fun hne => absurd rfl hne⟩
  | rst => exact absurd rfl hrst

/-- Settles O51: for each effect, what it leaves is unchanged by its shape, and what it writes names it. -/
theorem eachStateItemHasItsWriters : Obligations.EachStateItemHasItsWriters := by
  intro i s t h
  cases effect_of_exec h with
  | receive d hi => rw [sync_writes]; simp [hi]
  | joy a hg => simp [hg.shot, hg.tag]
  | tdev rs hx hy hg hl hr => simp [hg.shot, hg.tag, hl, hr]
  | report | tick | lnko | lnkc | cdpd | epwr | shot | tsta | pubp | rst => simp

/-! ### The invariant -/

/-- The invariant does not speak of the ports. -/
theorem Inv.withPorts {s : State} (h : Inv s) (items : List Item) (rs : List Record) :
    Inv { s with pending := items, outPort := rs } :=
  ⟨h.sync, h.cmd, h.range, h.watchdog, h.tag, h.float⟩

/-- 0 is the value of the word of 32 zero bits. -/
theorem finiteBinary32_zero : FiniteBinary32 0 := ⟨0, by decide⟩

/-- Each clause of the invariant, at the values of R176. -/
theorem inv_reset : Inv State.reset where
  sync := .inl ⟨rfl, by decide⟩
  cmd := ⟨.inl rfl, by decide, by decide, by decide, by decide, rfl⟩
  range := by decide
  watchdog := by decide
  tag := by decide
  float := ⟨finiteBinary32_zero, finiteBinary32_zero, finiteBinary32_zero, finiteBinary32_zero⟩

/-- Settles O47. -/
theorem invariantHoldsAtReset : Obligations.InvariantHoldsAtReset := inv_reset

/-- A ceiling is at most the default one (44_aggregator.md R127). -/
theorem pct2lim_le (p : Byte) : pct2lim p ≤ 32767 := by
  simp only [pct2lim, percentOperand, Config.pctMax, Config.limDefault]
  omega

/-- The tag TSTA writes agrees with the mode it writes (R29, 45_mode.md R148). -/
theorem Mode.tag_eq_position_iff (m : Mode) : m.tag = .position ↔ m = .track := by
  cases m <;> decide

/-- Reception keeps the invariant: the frames decide SYNCST, the watchdog and the link, and nothing else is
written. -/
theorem Inv.receive {s : State} (h : Inv s) (d : List Byte) :
    Inv (Machine.sync { s with buf := s.buf ++ d }) := by
  obtain ⟨frames, gap, hd⟩ := sync_decodes _ (lockedOnMarker_append h.sync d)
  obtain ⟨hwd, htx, hl, hr⟩ := h.range
  have hsync := hd.syncInv
  rw [hd.state] at hsync ⊢
  refine ⟨hsync, h.cmd, ⟨?_, htx, hl, hr⟩, ?_, h.tag, h.float⟩
  · show (if frames = [] then s.wdcnt else 500) ≤ 500
    split <;> omega
  · show 0 < (if frames = [] then s.wdcnt else 500) ↔ (if frames = [] then s.link else true) = true
    split
    · exact h.watchdog
    · simp

/-- TICK keeps the invariant: the link goes offline on the count that disarms the timer (R112). -/
theorem Inv.tick {s : State} (h : Inv s) (rs : List Record) : Inv { s with
    wdcnt := s.wdcnt - 1, link := if s.wdcnt = 1 then false else s.link
    txcnt := if s.txcnt + 1 = 50 then 0 else s.txcnt + 1, outPort := s.outPort ++ rs } := by
  obtain ⟨hwd, htx, hl, hr⟩ := h.range
  refine ⟨h.sync, h.cmd, ⟨?_, ?_, hl, hr⟩, ?_, h.tag, h.float⟩
  · show s.wdcnt - 1 ≤ 500
    omega
  · show (if s.txcnt + 1 = 50 then 0 else s.txcnt + 1) ≤ 49
    split <;> omega
  · show 0 < s.wdcnt - 1 ↔ (if s.wdcnt = 1 then false else s.link) = true
    split
    · simp [*]
    · have hlink : 0 < s.wdcnt ↔ s.link = true := h.watchdog
      rw [← hlink]
      omega

/-- A gated write keeps tag and mode in agreement (R29). -/
theorem GatedWrite.tagInv {s : State} {c : Command} {d : Bool} (hg : GatedWrite s.cmd s.dirty c d)
    (h : TagInv s) : c.tag = .position ↔ s.mode = .track := by
  rw [hg.tag]
  exact h

/-- Every effect keeps the invariant. -/
theorem Inv.effect {i : Instr} {s t : State} (h : Inv s) (he : Effect s i t) : Inv t := by
  obtain ⟨hdx, hdy, hcx, hcy⟩ := h.float
  obtain ⟨hwd, htx, hl, hr⟩ := h.range
  cases he with
  | receive d hi => exact h.receive d
  | report | lnko | lnkc | pubp => exact ⟨h.sync, h.cmd, h.range, h.watchdog, h.tag, h.float⟩
  | tick rs => exact h.tick rs
  | joy a hg =>
    exact ⟨h.sync, hg.inv h.cmd, h.range, h.watchdog, hg.tagInv h.tag, h.float⟩
  | tdev rs hx hy hg =>
    exact ⟨h.sync, hg.inv h.cmd, h.range, h.watchdog, hg.tagInv h.tag, ⟨_, hx⟩, ⟨_, hy⟩, hcx, hcy⟩
  | cdpd hx hy => exact ⟨h.sync, h.cmd, h.range, h.watchdog, h.tag, hdx, hdy, ⟨_, hx⟩, ⟨_, hy⟩⟩
  | epwr pl pr =>
    exact ⟨h.sync, h.cmd, ⟨hwd, htx, pct2lim_le pl, pct2lim_le pr⟩, h.watchdog, h.tag, h.float⟩
  | shot f =>
    obtain ⟨-, hfields⟩ := h.cmd
    refine ⟨h.sync, ⟨?_, hfields⟩, h.range, h.watchdog, h.tag, h.float⟩
    show (if boolOperand f then (1 : Byte) else 0) = 0 ∨ (if boolOperand f then (1 : Byte) else 0) = 1
    split <;> simp
  | tsta t =>
    exact ⟨h.sync, h.cmd, h.range, h.watchdog, Mode.tag_eq_position_iff _, h.float⟩
  | rst => exact inv_reset.withPorts s.pending s.outPort

/-- Settles O48: a step is idle, or an instruction's effect from the state without the item presented. -/
theorem invariantIsKeptByEveryStep : Obligations.InvariantIsKeptByEveryStep := by
  intro s t h hstep
  cases hp : s.pending with
  | nil =>
    rw [step_of_nothing hp] at hstep
    exact Host.Outcome.next.inj hstep ▸ h
  | cons item rest =>
    rw [step_of_pending hp] at hstep
    exact (h.withPorts rest s.outPort).effect (effect_of_exec hstep)

/-! ### Stored and never read (10_state.md R26, R37) -/

/-- `s` with the registers no instruction reads, axes 3 and 4 of JOY and DEV, taken from `u`. -/
def State.withUnread (s u : State) : State :=
  { s with joy := { s.joy with a3 := u.joy.a3, a4 := u.joy.a4 }, dev := u.dev }

@[simp] theorem State.withUnread_mode (s u : State) : (s.withUnread u).mode = s.mode := rfl
@[simp] theorem State.withUnread_cal (s u : State) : (s.withUnread u).cal = s.cal := rfl
@[simp] theorem State.withUnread_dirty (s u : State) : (s.withUnread u).dirty = s.dirty := rfl

/-- The gate of the aiming part reads axes 2 and 5 only (44_aggregator.md R131). -/
@[simp] theorem aimChanged_withUnread (a : Axes) (s u : State) :
    aimChanged a (s.withUnread u).joy = aimChanged a s.joy := rfl

/-- The gate of the drive part reads axes 0, 1, 6 and 7 only (R131). -/
@[simp] theorem driveChanged_withUnread (a : Axes) (s u : State) :
    driveChanged a (s.withUnread u).joy = driveChanged a s.joy := rfl

/-- The two states differ in nothing but the registers no instruction reads. -/
def State.SameButUnread (t' t : State) : Prop := t'.withUnread t = t

/-- The unread registers are on the command side, of which SYNC reads nothing (R2). -/
theorem sync_withUnread (s u : State) : sync (s.withUnread u) = (sync s).withUnread u := by
  have h := sync_withCommandSide s (s.withUnread u)
  rw [sync_writes s] at h ⊢
  exact h

/-- Reception commutes with a change of the unread registers. -/
theorem sync_bufAppendAll_sameButUnread (d : List Byte) (s u : State) :
    (sync ((s.withUnread u).bufAppendAll d)).SameButUnread (sync (s.bufAppendAll d)) := by
  have happend : (s.withUnread u).bufAppendAll d = (s.bufAppendAll d).withUnread u := by
    rw [State.bufAppendAll_eq, State.bufAppendAll_eq]; rfl
  rw [happend, sync_withUnread]
  rfl

/-- TICK commutes with a change of the unread registers. -/
theorem execTick_sameButUnread (s u : State) :
    (txStep (wdStep (s.withUnread u))).SameButUnread (txStep (wdStep s)) := by
  rw [txStep_eq, txStep_eq, wdStep_eq, wdStep_eq]
  rfl

/-- The aiming part of JOY commutes with a change of the unread registers. -/
theorem joyAim_withUnread (a : Axes) (s u : State) :
    joyAim a (s.withUnread u) = (joyAim a s).withUnread u := by
  unfold joyAim
  rw [State.withUnread_mode, aimChanged_withUnread]
  split
  · rw [aim, storeAim_eq, storeAim_eq]; rfl
  · rfl

/-- The drive part of JOY commutes with a change of the unread registers. -/
theorem joyDrive_withUnread (a : Axes) (s u : State) :
    joyDrive a (s.withUnread u) = (joyDrive a s).withUnread u := by
  unfold joyDrive
  rw [driveChanged_withUnread]
  split
  · rw [drive, drive, storeDrive_eq, storeDrive_eq]; rfl
  · rfl

/-- JOY overwrites the axes, whatever was held in the unread ones. -/
theorem execJoy_sameButUnread (a : Axes) (s u : State) :
    State.SameButUnread { joyDrive a (joyAim a (s.withUnread u)) with joy := a }
      { joyDrive a (joyAim a s) with joy := a } := by
  rw [joyAim_withUnread, joyDrive_withUnread]
  rfl

/-- TXR reads its operand only. -/
theorem execTxr_sameButUnread (w : Byte) (s u : State) : ∃ t t', execTxr w s = .next t ∧
    execTxr w (s.withUnread u) = .next t' ∧ t'.SameButUnread t := by
  unfold execTxr
  split
  · exact ⟨_, _, raise_eq .wrFail _, raise_eq .wrFail _, rfl⟩
  · split
    · exact ⟨_, _, raise_eq .shortWr _, raise_eq .shortWr _, rfl⟩
    · exact ⟨_, _, rfl, rfl, rfl⟩

/-- TDEV overwrites DEV before it reads it. -/
theorem execTdev_sameButUnread (dx dy : Word32) (s u : State) : ∃ t t', execTdev dx dy s = .next t ∧
    execTdev dx dy (s.withUnread u) = .next t' ∧ t'.SameButUnread t := by
  unfold execTdev
  split
  · dsimp only
    rw [State.withUnread_mode, State.withUnread_cal]
    split
    · exact ⟨_, _, rfl, rfl, rfl⟩
    · split
      · exact ⟨_, _, raise_eq .num _, raise_eq .num _, rfl⟩
      · rw [storeAim_eq, storeAim_eq]
        exact ⟨_, _, rfl, rfl, rfl⟩
  · exact ⟨_, _, raise_eq .num _, raise_eq .num _, rfl⟩

/-- CDPD reads its operands only. -/
theorem execCdpd_sameButUnread (sx sy : Word32) (s u : State) : ∃ t t', execCdpd sx sy s = .next t ∧
    execCdpd sx sy (s.withUnread u) = .next t' ∧ t'.SameButUnread t := by
  unfold execCdpd
  split
  · exact ⟨_, _, rfl, rfl, rfl⟩
  · exact ⟨_, _, raise_eq .num _, raise_eq .num _, rfl⟩

/-- PUBP reads DIRTY and CMD only. -/
theorem execPubp_sameButUnread (s u : State) : ∃ t t', execPubp s = .next t ∧
    execPubp (s.withUnread u) = .next t' ∧ t'.SameButUnread t := by
  unfold execPubp
  rw [State.withUnread_dirty]
  split
  · exact ⟨_, _, rfl, rfl, rfl⟩
  · exact ⟨_, _, rfl, rfl, rfl⟩

/-- No instruction reads axes 3 and 4 or DEV: with others there, its outcome is the same but for them. -/
theorem exec_sameButUnread (i : Instr) (s u : State) : ∃ t t', exec i s = .next t ∧
    exec i (s.withUnread u) = .next t' ∧ t'.SameButUnread t := by
  cases i with
  | rxb b => exact ⟨_, _, rfl, rfl, sync_bufAppendAll_sameButUnread [b] s u⟩
  | rxd d => exact ⟨_, _, rfl, rfl, sync_bufAppendAll_sameButUnread d s u⟩
  | frameTlm y p r => exact ⟨_, _, rfl, rfl, sync_bufAppendAll_sameButUnread _ s u⟩
  | tick => exact ⟨_, _, rfl, rfl, execTick_sameButUnread s u⟩
  | joy a => exact ⟨_, _, rfl, rfl, execJoy_sameButUnread a s u⟩
  | txr w => exact execTxr_sameButUnread w s u
  | tdev dx dy => exact execTdev_sameButUnread dx dy s u
  | cdpd sx sy => exact execCdpd_sameButUnread sx sy s u
  | pubp => exact execPubp_sameButUnread s u
  | rxe | lnko | lnkc | epwr _ _ | shot _ | tsta _ | rst | illegal _ | frameCmd _ _ _ _ | txf _
  | ypr _ _ _ | stat _ | infl _ _ _ _ _ _ _ | log _ => exact ⟨_, _, rfl, rfl, rfl⟩

/-- Settles O52. -/
theorem axesThreeFourAndDeviationAreNeverRead :
    Obligations.AxesThreeFourAndDeviationAreNeverRead := by
  intro i s t x y d h
  obtain ⟨t₀, t', h₀, h', hsame⟩ :=
    exec_sameButUnread i s { s with joy := { s.joy with a3 := x, a4 := y }, dev := d }
  obtain rfl : t = t₀ := Host.Outcome.next.inj (h.symm.trans h₀)
  exact ⟨t', h', hsame⟩

end Sys2Proof.Machine
end

section
/-! What each instruction can put on the output port, and what the TX stream gets of it (spec/20_memory.md R50,
R58). -/

namespace Sys2Proof.Machine

/-! ### The records of an instruction (20_memory.md R58) -/

/-- The record that a frame or record row emits as it stands (30_encoding.md R64, R78, log entry 3). -/
def rowRecord : Instr → Option Record
  | .frameCmd shot l r t => some (.txf (Config.marker ++ encCmd shot l r t))
  | .txf frame => some (.txf frame)
  | .ypr y p r => some (.ypr y p r)
  | .stat online => some (.stat online)
  | .infl shot l r t g c tag => some (.infl shot l r t g c tag)
  | .log code => some (.log code)
  | _ => none

/-- The records of TICK: a STAT(0) if the link expires, then a TXF if a send is due and the link still online
(42_watchdog.md R108, R109, 43_transmitter.md R115, R116). -/
def tickRecords (s : State) : List Record :=
  (if s.wdcnt = 1 ∧ s.link = true then [.stat 0] else []) ++
    if s.txcnt + 1 = 50 ∧ s.lnkopen = true ∧ (if s.wdcnt = 1 then false else s.link) = true then
      [.txf (commandFrame s.cmd)] else []

/-- The records of SYNC: the link online, or the telemetry of a frame (42_watchdog.md R107, 41_frame_sync.md R95). -/
abbrev ReceptionRecord (r : Record) : Prop := r = .stat 1 ∨ r.isYpr = true

/-- The records an instruction can emit from `s`. -/
inductive Emission (s : State) : Instr → List Record → Prop where
  | silent (i : Instr) : Emission s i []
  /-- An error (60_exceptions.md R168). -/
  | error (i : Instr) (e : ErrorClass) : Emission s i [.log e.code]
  /-- The frames decoded, and the link coming online. -/
  | receive {i : Instr} {rs : List Record} (hi : IsReception i)
      (h : ∀ r ∈ rs, ReceptionRecord r) : Emission s i rs
  | tick : Emission s .tick (tickRecords s)
  | pubp : Emission s .pubp [s.cmd.record]
  | row {i : Instr} {r : Record} (h : rowRecord i = some r) : Emission s i [r]

/-- From `s` to `t` the output port has grown by records `i` can emit. -/
def Emits (i : Instr) (s t : State) : Prop := ∃ rs, t.outPort = s.outPort ++ rs ∧ Emission s i rs

/-- An instruction that leaves the output port is silent. -/
theorem Emits.of_outPort_eq {i : Instr} {s t : State} (h : t.outPort = s.outPort) : Emits i s t :=
  ⟨[], by rw [h, List.append_nil], .silent i⟩

/-- The Seeking part of a pass emits nothing. -/
theorem syncSeek_outPort (s : State) : (syncSeek s).outPort = s.outPort := by
  obtain ⟨-, h⟩ | ⟨-, -, h⟩ | ⟨-, -, -, h⟩ | ⟨i, rest, -, -, -, h⟩ := syncSeek_cases s <;> rw [h]

/-- SYNC emits STAT(1) and YPR records only, from every state. -/
theorem sync_emits (s : State) :
    ∃ rs, (sync s).outPort = s.outPort ++ rs ∧ ∀ r ∈ rs, ReceptionRecord r := by
  refine sync_induction
    (P := fun s t => ∃ rs, t.outPort = s.outPort ++ rs ∧ ∀ r ∈ rs, ReceptionRecord r)
    (fun s _ => ⟨[], by simp [syncSeek_outPort], by simp⟩) (fun s t _ h8 ih => ?_) s
  obtain ⟨_, _, p0, p1, p2, p3, p4, p5, _, hb⟩ := eight_bytes h8
  obtain ⟨rs, hout, hrs⟩ := ih
  rw [syncFrame_eq _ _ _ _ _ _ _ _ _ _ hb] at hout
  refine ⟨(if (syncSeek s).link = true then [] else [.stat 1]) ++
    .ypr (i16OfBytes p0 p1) (i16OfBytes p2 p3) (i16OfBytes p4 p5) :: rs, ?_, ?_⟩
  · simp [hout, syncSeek_outPort]
  · intro r hr
    obtain hr | rfl | hr := by simpa using hr
    · exact .inl hr.2
    · exact .inr rfl
    · exact hrs r hr

/-- Reception emits what SYNC emits on the longer buffer (41_frame_sync.md R97). -/
theorem receive_emits {i : Instr} (hi : IsReception i) (s : State) (d : List Byte) :
    Emits i s (sync (s.bufAppendAll d)) := by
  obtain ⟨rs, hout, hrs⟩ := sync_emits (s.bufAppendAll d)
  exact ⟨rs, by rw [hout, State.bufAppendAll_eq], .receive hi hrs⟩

/-- TICK emits its watchdog's and its transmitter's records, in that order. -/
theorem execTick_emits (s : State) : Emits .tick s (txStep (wdStep s)) :=
  ⟨tickRecords s, by rw [txStep_eq, wdStep_eq]; exact List.append_assoc _ _ _, .tick⟩

/-- TXR emits an error or nothing. -/
theorem execTxr_emits (w : Byte) (s : State) : ∃ t, execTxr w s = .next t ∧ Emits (.txr w) s t := by
  unfold execTxr
  split
  · exact ⟨_, raise_eq .wrFail s, _, rfl, .error _ _⟩
  · split
    · exact ⟨_, raise_eq .shortWr s, _, rfl, .error _ _⟩
    · exact ⟨s, rfl, .of_outPort_eq rfl⟩

/-- JOY is silent. -/
theorem execJoy_emits (a : Axes) (s : State) :
    Emits (.joy a) s { joyDrive a (joyAim a s) with joy := a } := by
  obtain ⟨c, d, haim, -⟩ := joyAim_gated a s
  obtain ⟨c', d', hdrive, -⟩ := joyDrive_gated a (joyAim a s)
  rw [hdrive, haim]
  exact .of_outPort_eq rfl

/-- TDEV emits an error or nothing. -/
theorem execTdev_emits (dx dy : Word32) (s : State) :
    ∃ t, execTdev dx dy s = .next t ∧ Emits (.tdev dx dy) s t := by
  unfold execTdev
  split
  · dsimp only
    split
    · exact ⟨_, rfl, .of_outPort_eq rfl⟩
    · split
      · exact ⟨_, raise_eq .num _, _, rfl, .error _ _⟩
      · exact ⟨_, congrArg _ (storeAim_eq _ _ _), .of_outPort_eq rfl⟩
  · exact ⟨_, raise_eq .num s, _, rfl, .error _ _⟩

/-- CDPD emits an error or nothing. -/
theorem execCdpd_emits (sx sy : Word32) (s : State) :
    ∃ t, execCdpd sx sy s = .next t ∧ Emits (.cdpd sx sy) s t := by
  unfold execCdpd
  split
  · exact ⟨_, rfl, .of_outPort_eq rfl⟩
  · exact ⟨_, raise_eq .num s, _, rfl, .error _ _⟩

/-- PUBP emits the command or nothing. -/
theorem execPubp_emits (s : State) : ∃ t, execPubp s = .next t ∧ Emits .pubp s t := by
  unfold execPubp
  split
  · exact ⟨s, rfl, .of_outPort_eq rfl⟩
  · exact ⟨_, rfl, _, rfl, .pubp⟩

/-- Every instruction answers a next state and only appends records, those its emission allows. -/
theorem exec_emits (i : Instr) (s : State) : ∃ t, exec i s = .next t ∧ Emits i s t := by
  cases i with
  | rxb b => exact ⟨_, rfl, receive_emits (.inl ⟨b, rfl⟩) s [b]⟩
  | rxd d => exact ⟨_, rfl, receive_emits (.inr (.inl ⟨d, rfl⟩)) s d⟩
  | frameTlm y p r => exact ⟨_, rfl, receive_emits (.inr (.inr ⟨y, p, r, rfl⟩)) s _⟩
  | tick => exact ⟨_, rfl, execTick_emits s⟩
  | txr w => exact execTxr_emits w s
  | joy a => exact ⟨_, rfl, execJoy_emits a s⟩
  | tdev dx dy => exact execTdev_emits dx dy s
  | cdpd sx sy => exact execCdpd_emits sx sy s
  | pubp => exact execPubp_emits s
  | lnko | lnkc | epwr _ _ | shot _ | tsta _ | rst => exact ⟨_, rfl, .of_outPort_eq rfl⟩
  | rxe | illegal _ => exact ⟨_, raise_eq _ s, _, rfl, .error _ _⟩
  | frameCmd _ _ _ _ | txf _ | ypr _ _ _ | stat _ | infl _ _ _ _ _ _ _ | log _ =>
    exact ⟨_, rfl, _, rfl, .row rfl⟩

/-- The inversion: what an instruction that ran has emitted. -/
theorem emits_of_exec {i : Instr} {s t : State} (h : exec i s = .next t) : Emits i s t := by
  obtain ⟨u, hu, he⟩ := exec_emits i s
  obtain rfl : t = u := Host.Outcome.next.inj (h.symm.trans hu)
  exact he

/-! ### The TX stream (20_memory.md R50) -/

/-- The bytes a record puts on the TX stream. -/
def txBytes : Record → List Byte
  | .txf frame => frame
  | _ => []

/-- The TX stream, record by record. -/
theorem State.txStream_eq (s : State) : s.txStream = s.outPort.flatMap txBytes :=
  congrArg s.outPort.flatMap (funext fun r => by cases r <;> rfl)

/-- Appended records append their bytes. -/
theorem State.txStream_of_append {s t : State} {rs : List Record} (h : t.outPort = s.outPort ++ rs) :
    t.txStream = s.txStream ++ rs.flatMap txBytes := by
  rw [State.txStream_eq, State.txStream_eq, h, List.flatMap_append]

/-- A TXF record is well-formed if it holds nine bytes that begin with the marker (30_encoding.md R64, R78). -/
theorem wf_txf_iff (f : List Byte) :
    (Record.txf f).wf = true ↔ f.length = 9 ∧ f.take 2 = [0x55, 0x55] := by
  simp [Record.wf, Config.txFrameLen, Config.markerLen, Config.cmdSize, Config.marker, Config.marker0,
    Config.marker1]

/-- The marker and an encoded command are a whole frame (R64). -/
theorem wf_txf_marker_encCmd (shot : Byte) (l r t : I16) :
    (Record.txf (Config.marker ++ encCmd shot l r t)).wf = true :=
  (wf_txf_iff _).mpr ⟨rfl, rfl⟩

/-- A well-formed frame or record row emits a well-formed record. -/
theorem wf_of_rowRecord {i : Instr} {r : Record} (hwf : i.wf = true) (h : rowRecord i = some r) :
    r.wf = true := by
  cases i with
  | frameCmd sh a b c => cases h; exact wf_txf_marker_encCmd sh a b c
  | txf _ | ypr _ _ _ | stat _ | infl _ _ _ _ _ _ _ | log _ => cases h; exact hwf
  | _ => cases h

/-- The records of TICK put the frame of CMD on the TX stream, or nothing (43_transmitter.md R116). -/
theorem txBytes_tickRecords (s : State) : (tickRecords s).flatMap txBytes = [] ∨
    (tickRecords s).flatMap txBytes = commandFrame s.cmd := by
  have hstat : (if s.wdcnt = 1 ∧ s.link = true then [Record.stat 0] else []).flatMap txBytes = [] := by
    split <;> rfl
  rw [tickRecords, List.flatMap_append, hstat, List.nil_append]
  rw [apply_ite (List.flatMap txBytes)]
  exact (ite_eq_or_eq _ _ _).symm.imp_right fun h => h.trans (List.append_nil _)

/-- What a well-formed instruction emits puts nothing on the TX stream, or one whole frame: only TICK and the
rows that are TXF records or outbound frames write that stream. -/
theorem Emission.txBytes_nil_or_frame {i : Instr} {s : State} {rs : List Record} (hwf : i.wf = true)
    (he : Emission s i rs) :
    rs.flatMap txBytes = [] ∨ (Record.txf (rs.flatMap txBytes)).wf = true := by
  cases he with
  | silent | error | pubp => exact .inl rfl
  | receive hi h =>
    refine .inl (List.flatMap_eq_nil_iff.mpr fun r hr => ?_)
    obtain rfl | hypr := h r hr
    · rfl
    · cases r with
      | ypr => rfl
      | txf | stat | infl | log => cases hypr
  | tick =>
    refine (txBytes_tickRecords s).imp_right fun h => ?_
    rw [h]
    exact wf_txf_marker_encCmd _ _ _ _
  | @row _ r h =>
    have hr := wf_of_rowRecord hwf h
    cases r with
    | txf frame => exact .inr (by simpa [txBytes] using hr)
    | ypr | stat | infl | log => exact .inl rfl

/-- Settles O27: the port grows by the instruction's emission, and the stream by that emission's bytes. -/
theorem txStreamGrowsByWholeFrames : Obligations.TxStreamGrowsByWholeFrames := by
  intro i s t hwf h
  obtain ⟨rs, hout, he⟩ := emits_of_exec h
  rw [State.txStream_of_append hout]
  obtain hnil | hframe := he.txBytes_nil_or_frame hwf
  · exact .inl (by rw [hnil, List.append_nil])
  · obtain ⟨hlen, hmarker⟩ := (wf_txf_iff _).mp hframe
    exact .inr ⟨_, rfl, hlen, hmarker⟩

end Sys2Proof.Machine
end

section
/-! Encoder and decoder (spec/30_encoding.md): what each operand format takes, what is an operation of R73, and
the round trips over every row. -/

namespace Sys2Proof.Machine

/-! ### Fields (R67, R71, R77) -/

/-- A 16-bit field read back from the bytes it is sent as (R67). -/
@[simp] theorem i16OfBytes_lo8_hi8 (v : I16) : i16OfBytes (lo8 v) (hi8 v) = v :=
  (BitVec.extractLsb'_append_extractLsb'_eq_extractLsb' (by decide)).trans BitVec.extractLsb'_eq_self

/-- A floating operand read back from the bytes it is sent as (R71, R77). -/
@[simp] theorem word32OfBytes_bytes (w : Word32) :
    word32OfBytes (w.extractLsb' 0 8) (w.extractLsb' 8 8) (w.extractLsb' 16 8) (w.extractLsb' 24 8) = w := by
  rw [word32OfBytes, BitVec.extractLsb'_append_extractLsb'_eq_extractLsb' (by decide),
    BitVec.extractLsb'_append_extractLsb'_eq_extractLsb' (by decide),
    BitVec.extractLsb'_append_extractLsb'_eq_extractLsb' (by decide)]
  exact BitVec.extractLsb'_eq_self

/-- The bytes of a floating operand are the ones it was assembled from (R77). -/
theorem word32Bytes_word32OfBytes (b0 b1 b2 b3 : Byte) :
    word32Bytes (word32OfBytes b0 b1 b2 b3) = [b0, b1, b2, b3] := by
  have h1 : (word32OfBytes b0 b1 b2 b3).extractLsb' 8 8 = b1 := by
    rw [word32OfBytes, BitVec.extractLsb'_append_eq_of_le (by decide)]
    exact BitVec.extractLsb'_append_eq_right
  have h2 : (word32OfBytes b0 b1 b2 b3).extractLsb' 16 8 = b2 := by
    rw [word32OfBytes, BitVec.extractLsb'_append_eq_of_le (by decide),
      BitVec.extractLsb'_append_eq_of_le (by decide)]
    exact BitVec.extractLsb'_append_eq_right
  have h3 : (word32OfBytes b0 b1 b2 b3).extractLsb' 24 8 = b3 := by
    rw [word32OfBytes, BitVec.extractLsb'_append_eq_of_le (by decide),
      BitVec.extractLsb'_append_eq_of_le (by decide)]
    exact BitVec.extractLsb'_append_eq_left
  rw [word32Bytes, h1, h2, h3, word32OfBytes, BitVec.extractLsb'_append_eq_right]

/-! ### Operand formats (R74 to R77) -/

theorem formatZ_eq_some {k i : Instr} {args : List Byte} :
    formatZ k args = some i ↔ args = [] ∧ i = k := by
  cases args <;> simp [formatZ, eq_comm]

theorem formatB_eq_some {k : Byte → Instr} {args : List Byte} {i : Instr} :
    formatB k args = some i ↔ ∃ a, args = [a] ∧ i = k a := by
  constructor
  · intro h
    unfold formatB at h
    split at h
    · exact ⟨_, rfl, (Option.some.inj h).symm⟩
    · cases h
  · rintro ⟨a, rfl, rfl⟩; rfl

theorem formatP_eq_some {k : Byte → Byte → Instr} {args : List Byte} {i : Instr} :
    formatP k args = some i ↔ ∃ l r, args = [l, r] ∧ i = k l r := by
  constructor
  · intro h
    unfold formatP at h
    split at h
    · exact ⟨_, _, rfl, (Option.some.inj h).symm⟩
    · cases h
  · rintro ⟨l, r, rfl, rfl⟩; rfl

/-- The count of RXD is a byte, which holds every length R76 allows. -/
theorem toNat_count {d : List Byte} (h : d.length ≤ Config.rxdMax) :
    (BitVec.ofNat 8 d.length).toNat = d.length :=
  (BitVec.toNat_ofNat _ _).trans (Nat.mod_eq_of_lt (Nat.lt_succ_of_le h))

theorem formatV_eq_some {k : List Byte → Instr} {args : List Byte} {i : Instr} :
    formatV k args = some i ↔
      ∃ d, d.length ≤ Config.rxdMax ∧ args = BitVec.ofNat 8 d.length :: d ∧ i = k d := by
  constructor
  · intro h
    unfold formatV at h
    split at h
    · rename_i n d
      split at h
      · rename_i hlen
        have hmax : d.length ≤ Config.rxdMax := by rw [hlen]; exact Nat.le_of_lt_succ n.isLt
        exact ⟨d, hmax, by simp [hlen], (Option.some.inj h).symm⟩
      · cases h
    · cases h
  · rintro ⟨d, hlen, rfl, rfl⟩
    exact if_pos (toNat_count hlen).symm

theorem formatJ_eq_some {k : Axes → Instr} {args : List Byte} {i : Instr} :
    formatJ k args = some i ↔ ∃ a, args = axesBytes a ∧ i = k a := by
  constructor
  · intro h
    unfold formatJ at h
    split at h
    · exact ⟨_, by simp [axesBytes, i16Bytes_i16OfBytes], (Option.some.inj h).symm⟩
    · cases h
  · rintro ⟨a, rfl, rfl⟩
    simp [axesBytes, i16Bytes, formatJ]

theorem formatF_eq_some {k : Word32 → Word32 → Instr} {args : List Byte} {i : Instr} :
    formatF k args = some i ↔ ∃ x y, args = word32Bytes x ++ word32Bytes y ∧ i = k x y := by
  constructor
  · intro h
    unfold formatF at h
    split at h
    · exact ⟨_, _, by simp only [word32Bytes_word32OfBytes]; rfl, (Option.some.inj h).symm⟩
    · cases h
  · rintro ⟨x, y, rfl, rfl⟩
    simp [word32Bytes, formatF]

/-! ### Operation words (R73) -/

/-- `w` is the word of the operation `i`, which is one R73 allows. -/
abbrev IsWordOf (w : List Byte) (i : Instr) : Prop :=
  i.isOperation = true ∧ i.wf = true ∧ encode i = w

/-- One row of the decoder: the opcode is this row's, or the word is left to the rows below. -/
theorem isWordOf_ite {op c : Byte} {args : List Byte} {i : Instr} {x y : Option Instr}
    (hrow : x = some i → IsWordOf (c :: args) i) (hbelow : y = some i → IsWordOf (op :: args) i) :
    (if op = c then x else y) = some i → IsWordOf (op :: args) i := by
  split
  · rename_i h; exact h ▸ hrow
  · exact hbelow

/-- The words of R73 are the encodings of the well-formed operations, each of one operation. -/
theorem decodeOperation_eq_some_iff {w : List Byte} {i : Instr} :
    decodeOperation w = some i ↔ IsWordOf w i := by
  constructor
  · intro h
    cases w with
    | nil => cases h
    | cons op args =>
      revert h
      refine isWordOf_ite ?rxb <| isWordOf_ite ?rxd <| isWordOf_ite ?rxe <| isWordOf_ite ?tick <|
        isWordOf_ite ?lnko <| isWordOf_ite ?lnkc <| isWordOf_ite ?txr <| isWordOf_ite ?joy <|
        isWordOf_ite ?tdev <| isWordOf_ite ?cdpd <| isWordOf_ite ?epwr <| isWordOf_ite ?shot <|
        isWordOf_ite ?tsta <| isWordOf_ite ?pubp <| isWordOf_ite ?rst nofun
      case rxe | tick | lnko | lnkc | pubp | rst =>
        rw [formatZ_eq_some]; rintro ⟨rfl, rfl⟩; exact ⟨rfl, rfl, rfl⟩
      case rxb | txr | shot | tsta =>
        rw [formatB_eq_some]; rintro ⟨b, rfl, rfl⟩; exact ⟨rfl, rfl, rfl⟩
      case epwr => rw [formatP_eq_some]; rintro ⟨l, r, rfl, rfl⟩; exact ⟨rfl, rfl, rfl⟩
      case rxd => rw [formatV_eq_some]; rintro ⟨d, hlen, rfl, rfl⟩; exact ⟨rfl, decide_eq_true hlen, rfl⟩
      case joy => rw [formatJ_eq_some]; rintro ⟨a, rfl, rfl⟩; exact ⟨rfl, rfl, rfl⟩
      case tdev | cdpd => rw [formatF_eq_some]; rintro ⟨x, y, rfl, rfl⟩; exact ⟨rfl, rfl, rfl⟩
  · rintro ⟨hop, hwf, rfl⟩
    cases i with
    | rxb _ | rxe | tick | lnko | lnkc | txr _ | epwr _ _ | shot _ | tsta _ | pubp | rst => rfl
    | rxd d => exact formatV_eq_some.mpr ⟨d, of_decide_eq_true hwf, rfl, rfl⟩
    | joy a => exact formatJ_eq_some.mpr ⟨a, rfl, rfl⟩
    | tdev x y | cdpd x y => exact formatF_eq_some.mpr ⟨x, y, rfl, rfl⟩
    | illegal _ | frameTlm _ _ _ | frameCmd _ _ _ _ | txf _ | ypr _ _ _ | stat _
    | infl _ _ _ _ _ _ _ | log _ => cases hop

/-! ### Legal words (R81) -/

/-- Sixteen bytes are the operand of a JOY (R77). -/
theorem exists_axesBytes {args : List Byte} (h : args.length = 16) : ∃ a, args = axesBytes a := by
  match args, h with
  | [l0, h0, l1, h1, l2, h2, l3, h3, l4, h4, l5, h5, l6, h6, l7, h7], _ =>
    exact ⟨⟨i16OfBytes l0 h0, i16OfBytes l1 h1, i16OfBytes l2 h2, i16OfBytes l3 h3, i16OfBytes l4 h4,
      i16OfBytes l5 h5, i16OfBytes l6 h6, i16OfBytes l7 h7⟩, by simp [axesBytes, i16Bytes_i16OfBytes]⟩

/-- Eight bytes are two floating operands (R77). -/
theorem exists_word32Bytes {args : List Byte} (h : args.length = 8) :
    ∃ x y, args = word32Bytes x ++ word32Bytes y := by
  match args, h with
  | [x0, x1, x2, x3, y0, y1, y2, y3], _ =>
    exact ⟨word32OfBytes x0 x1 x2 x3, word32OfBytes y0 y1 y2 y3, by simp [word32Bytes_word32OfBytes]⟩

/-- Taking operands of one length only, in the form in which legality asks for it (R81). -/
theorem isSome_eq_of_iff {o : Option Instr} {args : List Byte} {n : Nat}
    (h : o.isSome = true ↔ args.length = n) : o.isSome = (some (n + 1) == some (args.length + 1)) := by
  rw [Bool.eq_iff_iff, h, beq_iff_eq, Option.some.injEq, Nat.add_right_cancel_iff, eq_comm]

/-! Each format takes its operands at the length R73 gives them, and at no other (R74 to R77). -/

theorem isSome_formatZ (k : Instr) (args : List Byte) :
    (formatZ k args).isSome = (some 1 == some (args.length + 1)) :=
  isSome_eq_of_iff (by simp [Option.isSome_iff_exists, formatZ_eq_some])

theorem isSome_formatB (k : Byte → Instr) (args : List Byte) :
    (formatB k args).isSome = (some 2 == some (args.length + 1)) :=
  isSome_eq_of_iff (by simp [Option.isSome_iff_exists, formatB_eq_some, List.length_eq_one_iff])

theorem isSome_formatP (k : Byte → Byte → Instr) (args : List Byte) :
    (formatP k args).isSome = (some 3 == some (args.length + 1)) :=
  isSome_eq_of_iff (by simp [Option.isSome_iff_exists, formatP_eq_some, List.length_eq_two])

theorem isSome_formatV (k : List Byte → Instr) (args : List Byte) :
    (formatV k args).isSome = (args.head?.map (fun n => 2 + n.toNat) == some (args.length + 1)) := by
  cases args with
  | nil => rfl
  | cons n d =>
    have hlen : d.length = n.toNat ↔ 2 + n.toNat = d.length + 1 + 1 := by omega
    rw [Bool.eq_iff_iff]
    simp [formatV, hlen]

theorem isSome_formatJ (k : Axes → Instr) (args : List Byte) :
    (formatJ k args).isSome = (some 17 == some (args.length + 1)) :=
  isSome_eq_of_iff (by
    simp only [Option.isSome_iff_exists, formatJ_eq_some]
    constructor
    · rintro ⟨_, a, rfl, -⟩; rfl
    · intro h
      obtain ⟨a, hargs⟩ := exists_axesBytes h
      exact ⟨_, a, hargs, rfl⟩)

theorem isSome_formatF (k : Word32 → Word32 → Instr) (args : List Byte) :
    (formatF k args).isSome = (some 9 == some (args.length + 1)) :=
  isSome_eq_of_iff (by
    simp only [Option.isSome_iff_exists, formatF_eq_some]
    constructor
    · rintro ⟨_, x, y, rfl, -⟩; rfl
    · intro h
      obtain ⟨x, y, hargs⟩ := exists_word32Bytes h
      exact ⟨_, x, y, hargs, rfl⟩)

/-- A word is legal exactly when it decodes to an operation. -/
theorem legalWord_eq (w : List Byte) : legalWord w = (decodeOperation w).isSome := by
  cases w with
  | nil => rfl
  | cons op args =>
    simp only [legalWord, opLength, decodeOperation, apply_ite Option.isSome,
      apply_ite (· == some (args.length + 1)), isSome_formatZ, isSome_formatB, isSome_formatP,
      isSome_formatV, isSome_formatJ, isSome_formatF]
    rfl

/-- A word is legal if as many bytes follow its opcode as R73 gives it. -/
theorem legalWord_of_length {op : Byte} {args : List Byte} {n : Nat} (hlen : args.length = n)
    (hop : opLength op args = some (n + 1)) : legalWord (op :: args) = true :=
  beq_iff_eq.mpr (hlen ▸ hop)

/-- Settles O4: a legal word is the encoding of an operation, whose bytes after the opcode are counted. -/
theorem legalWordsAreThoseOfTheOperationList : Obligations.LegalWordsAreThoseOfTheOperationList := by
  intro w
  constructor
  · intro h
    rw [legalWord_eq] at h
    obtain ⟨i, hi⟩ := Option.isSome_iff_exists.mp h
    obtain ⟨hop, hwf, rfl⟩ := decodeOperation_eq_some_iff.mp hi
    cases i with
    | rxe | tick | lnko | lnkc | pubp | rst => exact .inl ⟨[], rfl, by decide⟩
    | rxb b | txr b | shot b | tsta b =>
      exact .inr (.inl ⟨[b], rfl, by simp [encode, opRxb, opTxr, opShot, opTsta]⟩)
    | epwr l r => exact .inr (.inr (.inl ⟨[l, r], rfl, rfl⟩))
    | tdev x y => exact .inr (.inr (.inr (.inl ⟨_, rfl, .inl rfl⟩)))
    | cdpd x y => exact .inr (.inr (.inr (.inl ⟨_, rfl, .inr rfl⟩)))
    | joy a => exact .inr (.inr (.inr (.inr (.inl ⟨axesBytes a, rfl, rfl⟩))))
    | rxd d =>
      exact .inr (.inr (.inr (.inr (.inr ⟨_, d, (toNat_count (of_decide_eq_true hwf)).symm, rfl⟩))))
    | illegal _ | frameTlm _ _ _ | frameCmd _ _ _ _ | txf _ | ypr _ _ _ | stat _
    | infl _ _ _ _ _ _ _ | log _ => cases hop
  · rintro (⟨args, h, hw⟩ | ⟨args, h, hw⟩ | ⟨args, h, rfl⟩ | ⟨args, h, hw⟩ | ⟨args, h, rfl⟩ |
      ⟨n, d, h, rfl⟩)
    · obtain rfl | rfl | rfl | rfl | rfl | rfl := hw <;> exact legalWord_of_length h rfl
    · obtain rfl | rfl | rfl | rfl := hw <;> exact legalWord_of_length h rfl
    · exact legalWord_of_length h rfl
    · obtain rfl | rfl := hw <;> exact legalWord_of_length h rfl
    · exact legalWord_of_length h rfl
    · have hargs : (n :: d).length = 1 + n.toNat := by simp [h, Nat.add_comm]
      exact legalWord_of_length hargs (congrArg some (Nat.add_right_comm 1 1 _))

/-! ### Words of the event port (R72, R81) -/

/-- An operation is a row of the event port (20_memory.md R45). -/
theorem space_of_isOperation {i : Instr} (h : i.isOperation = true) : i.space = .event := by
  cases i with
  | illegal _ | frameTlm _ _ _ | frameCmd _ _ _ _ | txf _ | ypr _ _ _ | stat _
  | infl _ _ _ _ _ _ _ | log _ => cases h
  | _ => rfl

/-- A word of the event port decodes to an operation whose encoding it is, or is illegal. -/
theorem decodeEvent_cases (w : List Byte) :
    (legalWord w = true ∧ (decodeEvent w).isOperation = true ∧ encode (decodeEvent w) = w) ∨
    (legalWord w = false ∧ decodeEvent w = .illegal w) := by
  rw [legalWord_eq, decodeEvent]
  cases h : decodeOperation w with
  | none => exact .inr ⟨rfl, rfl⟩
  | some i =>
    obtain ⟨hop, -, henc⟩ := decodeOperation_eq_some_iff.mp h
    exact .inl ⟨rfl, hop, henc⟩

/-- Settles O2, for a legal and for an illegal word. -/
theorem encodeOfDecodedWordIsTheWord : Obligations.EncodeOfDecodedWordIsTheWord := by
  intro w
  obtain ⟨-, hop, henc⟩ | ⟨-, hill⟩ := decodeEvent_cases w
  · exact ⟨space_of_isOperation hop, henc⟩
  · rw [hill]; exact ⟨rfl, rfl⟩

/-- Settles O3, for a legal and for an illegal word; ILLEGAL is `raise`. -/
theorem illegalWordsAreRefusedWithALogRecord : Obligations.IllegalWordsAreRefusedWithALogRecord := by
  intro w
  refine ⟨?operation, raise_eq .illOp, ?step⟩
  case operation =>
    obtain ⟨hlegal, hop, -⟩ | ⟨hlegal, hill⟩ := decodeEvent_cases w
    · rw [hlegal, hop]
    · rw [hlegal, hill]; rfl
  case step =>
    intro hlegal
    obtain ⟨h, -⟩ | ⟨-, hill⟩ := decodeEvent_cases w
    · rw [hlegal] at h; cases h
    · refine ⟨hill, fun s => ?_⟩
      rw [step_present_event, hill]
      exact raise_eq .illOp s

/-! ### Every row decodes from its encoding -/

/-- On the event port: an operation, or an illegal word (R81). -/
theorem decodeEvent_encode {i : Instr} (hs : i.space = .event) (hwf : i.wf = true) :
    decodeEvent (encode i) = i := by
  cases hop : i.isOperation with
  | true =>
    have h : decodeOperation (encode i) = some i := decodeOperation_eq_some_iff.mpr ⟨hop, hwf, rfl⟩
    simp [decodeEvent, h]
  | false =>
    cases i with
    | illegal w =>
      obtain ⟨hlegal, -⟩ | ⟨-, hill⟩ := decodeEvent_cases w
      · simp [Instr.wf, hlegal] at hwf
      · exact hill
    | frameTlm _ _ _ | frameCmd _ _ _ _ | txf _ | ypr _ _ _ | stat _ | infl _ _ _ _ _ _ _ | log _ =>
      cases hs
    | _ => cases hop

/-- On the output port: a record (R78 to R80). -/
theorem decode_out_of_decodeRecord {w : List Byte} {i : Instr} (h : decodeRecord w = some i) :
    decode .out w = .ok i := by
  simp [decode, h]

/-- Settles O1, space by space. -/
theorem decodeOfEncodeIsTheInstruction : Obligations.DecodeOfEncodeIsTheInstruction := by
  intro i hwf
  cases i with
  | frameTlm y p r => simp [Instr.space, decode, encode, decodeTelemetryFrame, Config.marker, i16Bytes]
  | frameCmd f l r t => simp [Instr.space, decode, encode, decodeCommandFrame, Config.marker, i16Bytes]
  | txf frame =>
    obtain ⟨hlen, -⟩ := (wf_txf_iff frame).mp hwf
    exact decode_out_of_decodeRecord (if_pos hlen)
  | ypr y p r =>
    have hpayload : payloadYpr (i16Bytes y ++ i16Bytes p ++ i16Bytes r) = some (.ypr y p r) := by
      simp [i16Bytes, payloadYpr]
    exact decode_out_of_decodeRecord hpayload
  | infl f l r t g c tag =>
    have hpayload : payloadInfl (f :: (i16Bytes l ++ i16Bytes r ++ i16Bytes t ++ i16Bytes g ++
        i16Bytes c ++ [tag])) = some (.infl f l r t g c tag) := by
      simp [i16Bytes, payloadInfl]
    exact decode_out_of_decodeRecord hpayload
  | stat b | log b => rfl
  | _ => exact congrArg Except.ok (decodeEvent_encode rfl hwf)

/-- Settles O5: each word decodes by evaluation. -/
theorem sampleWordsDecode : Obligations.SampleWordsDecode := by
  unfold Obligations.SampleWordsDecode
  decide

/-- Settles O6: every layout but TXF's is the encoder's own, and a frame has nine bytes. -/
theorem frameAndRecordLayouts : Obligations.FrameAndRecordLayouts := by
  refine ⟨fun _ _ _ => rfl, fun _ _ _ _ => rfl, fun _ _ _ => rfl, fun _ => rfl,
    fun _ _ _ _ _ _ _ => rfl, fun _ => rfl, fun f hwf => ⟨rfl, ?_⟩⟩
  obtain ⟨hlen, -⟩ := (wf_txf_iff f).mp hwf
  exact congrArg (· + 1) hlen

/-! ### The values of operands (R67, R71) -/

/-- The pattern of a 16-bit field, as a number (R67). -/
theorem i16OfBytes_toNat (lo hi : Byte) : (i16OfBytes lo hi).toNat = hi.toNat * 256 + lo.toNat := by
  rw [i16OfBytes, BitVec.toNat_append, ← Nat.shiftLeft_add_eq_or_of_lt lo.isLt, Nat.shiftLeft_eq]

/-- Settles O7, from the pattern's number. -/
theorem sixteenBitFieldsAreLittleEndianTwosComplement :
    Obligations.SixteenBitFieldsAreLittleEndianTwosComplement := by
  refine ⟨fun lo hi => ⟨?_, i16Bytes_i16OfBytes lo hi⟩, i16OfBytes_lo8_hi8⟩
  rw [BitVec.toInt_eq_toNat_cond, i16OfBytes_toNat]
  dsimp only
  split <;> split <;> omega

/-! The fields of a binary32 word, as numbers. -/

theorem floatExponent_eq (w : Word32) : floatExponent w = w.toNat / 2 ^ 23 % 256 := by
  rw [floatExponent, BitVec.extractLsb'_toNat, Nat.shiftRight_eq_div_pow]

theorem floatFraction_eq (w : Word32) : floatFraction w = w.toNat % 2 ^ 23 := by
  rw [floatFraction, BitVec.extractLsb'_toNat, Nat.shiftRight_zero]

theorem floatSign_eq (w : Word32) : (floatSign w : Rat) = if w.getLsbD 31 then -1 else 1 := by
  rw [floatSign, apply_ite (Int.cast : Int → Rat)]
  norm_num

/-- The scaling of R71 from exponent field 150 on. -/
theorem mkRat_scale_up (m : Int) {e : Nat} (h : 150 ≤ e) :
    mkRat (m * 2 ^ (e - 150)) 1 = (m : Rat) * 2 ^ ((e : Int) - 150) := by
  have hexp : (e : Int) - 150 = (e - 150 : Nat) := by omega
  rw [hexp, zpow_natCast]
  simp [Rat.mkRat_eq_div]

/-- The scaling of R71 below exponent field 150. -/
theorem mkRat_scale_down (m : Int) {e : Nat} (h : e ≤ 150) :
    mkRat m (2 ^ (150 - e)) = (m : Rat) * 2 ^ ((e : Int) - 150) := by
  have hexp : (e : Int) - 150 = -(150 - e : Nat) := by omega
  rw [hexp, zpow_neg, zpow_natCast]
  simp [Rat.mkRat_eq_div, div_eq_mul_inv]

/-- Settles O8, by the cases of R71; a subnormal is scaled as exponent field 1 is. -/
theorem floatingOperandIsItsBinary32Value : Obligations.FloatingOperandIsItsBinary32Value := by
  intro w
  dsimp only
  rw [← floatSign_eq, ← floatExponent_eq, ← floatFraction_eq]
  simp only [floatOperand]
  split_ifs with hnonfinite hsubnormal hscale
  · rfl
  · rw [mkRat_scale_down (floatSign w * floatFraction w) (e := 1) (by decide)]
    norm_num
  · rw [mkRat_scale_up _ hscale]
    push_cast
    rfl
  · rw [mkRat_scale_down _ (Nat.le_of_not_le hscale)]
    push_cast
    rfl

end Sys2Proof.Machine
end

section
/-! From bytes presented to their effect (spec/30_encoding.md R72, 41_frame_sync.md R95), and which records an
effect can emit (30_encoding.md R78 to R80). -/

namespace Sys2Proof.Machine

/-! ### The step and the aligned synchronizer -/

/-- Settles O11: where the bytes decode, what is executed is what they decode to. -/
theorem stepRunsTheDecodedInstruction : Obligations.StepRunsTheDecodedInstruction := by
  intro s item rest i hp hdec _
  have hitem : decodeItem item = i := by simp [decodeItem, hdec]
  rw [step_of_pending hp, hitem]

/-- A marker in front is found at once (41_frame_sync.md R95). -/
theorem syncSeek_of_marker {s : State} {rest : List Byte} (hs : s.syncst = .seeking)
    (hb : s.buf = 0x55 :: 0x55 :: rest) : syncSeek s = { s with syncst := .locked } := by
  simp [syncSeek, hs, hb, find2, Config.markerLen, Config.marker0, Config.marker1, State.bufDrop]

/-- With nothing held SYNC does nothing (R95). -/
theorem sync_of_empty {s : State} (hs : s.syncst = .seeking) (hb : s.buf = []) : sync s = s := by
  have hseek : syncSeek s = s := by simp [syncSeek, hs, hb, Config.markerLen]
  rw [sync_eq, hseek, if_neg (by simp [hs])]

/-- A whole frame, held by an aligned synchronizer, is published and removed (R95, R102, R103). -/
theorem sync_of_frame {s : State} {p0 p1 p2 p3 p4 p5 : Byte} (hs : s.syncst = .seeking)
    (hb : s.buf = [0x55, 0x55, p0, p1, p2, p3, p4, p5]) :
    sync s = { s with
      buf := [], wdcnt := 500, link := true
      outPort := s.outPort ++ (if s.link = true then [] else [.stat 1]) ++
        [.ypr (i16OfBytes p0 p1) (i16OfBytes p2 p3) (i16OfBytes p4 p5)] } := by
  have hframe := syncFrame_eq { s with syncst := .locked } _ _ _ _ _ _ _ _ _ hb
  rw [sync_eq, syncSeek_of_marker hs hb, if_pos ⟨rfl, by simp [hb]⟩, hframe, sync_of_empty rfl rfl, ← hs]

/-- Settles O20: FRAME.TLM receives its own encoding, which an aligned synchronizer takes whole. -/
theorem alignedTelemetryFrameIsPublished : Obligations.AlignedTelemetryFrameIsPublished := by
  intro y p r s
  refine ⟨rfl, fun hs hb => ?_⟩
  have hbuf : s.buf ++ encode (.frameTlm y p r) = encode (.frameTlm y p r) := by rw [hb, List.nil_append]
  have hexec : exec (.frameTlm y p r) s = .next (sync { s with buf := encode (.frameTlm y p r) }) := by
    rw [← hbuf, ← State.bufAppendAll_eq]; rfl
  rw [hexec, sync_of_frame (s := { s with buf := encode (.frameTlm y p r) }) hs rfl]
  simp [hb]

/-! ### What is emitted (R78 to R80, 60_exceptions.md R157) -/

/-- The codes of R157 are 1 to 5. -/
theorem wf_errorCode (e : ErrorClass) : (Record.log e.code).wf = true := by
  cases e <;> rfl

/-- A command in range publishes a legal record (R79). -/
theorem wf_commandRecord {c : Command} (h : CmdInv c) : c.record.wf = true := by
  obtain ⟨hshot, -⟩ := h
  have htag : c.tag.byte = 0 ∨ c.tag.byte = 1 := by cases c.tag <;> simp [Tag.byte]
  simpa [Command.record, Record.wf] using And.intro hshot htag

/-- What is emitted on a condition is legal if it is legal when emitted. -/
theorem forall_mem_ite_wf {c : Prop} [Decidable c] {r : Record} (h : r.wf = true) :
    ∀ r' ∈ if c then [r] else [], r'.wf = true := by
  split
  · exact List.forall_mem_singleton.mpr h
  · exact List.forall_mem_nil _

/-- Every record an instruction can emit is one of R78 to R80. -/
theorem Emission.wf {i : Instr} {s : State} {rs : List Record} (hs : CmdInv s.cmd) (hwf : i.wf = true)
    (he : Emission s i rs) : ∀ r ∈ rs, r.wf = true := by
  cases he with
  | silent => exact List.forall_mem_nil _
  | error _ e => exact List.forall_mem_singleton.mpr (wf_errorCode e)
  | receive hi h =>
    intro r hr
    obtain rfl | hypr := h r hr
    · rfl
    · cases r with
      | ypr => rfl
      | txf | stat | infl | log => cases hypr
  | tick =>
    rw [tickRecords, List.forall_mem_append]
    exact ⟨forall_mem_ite_wf rfl, forall_mem_ite_wf (wf_txf_marker_encCmd _ _ _ _)⟩
  | pubp => exact List.forall_mem_singleton.mpr (wf_commandRecord hs)
  | row h => exact List.forall_mem_singleton.mpr (wf_of_rowRecord hwf h)

/-- Settles O49: the port grows by the instruction's emission. -/
theorem onlyLegalRecordsAreEmitted : Obligations.OnlyLegalRecordsAreEmitted := by
  intro i s t hinv hwf h
  obtain ⟨rs, hout, he⟩ := emits_of_exec h
  exact ⟨rs, hout, he.wf hinv.cmd hwf⟩

end Sys2Proof.Machine
end

section
/-! The codec's round trips and the degree scale (spec/40_codec.md R86 to R92). -/

namespace Sys2Proof.Machine

/-! ### Decoding an encoding (R92) -/

/-- DEC_TLM undoes ENC_TLM (R87, R89). -/
theorem decTlm_encTlm (y p r : I16) : decTlm (encTlm y p r) = some ⟨y, p, r⟩ := by
  simp [encTlm, i16Bytes, decTlm]

/-- DEC_CMD undoes ENC_CMD (R86, R90). -/
theorem decCmd_encCmd (f : Byte) (l r t : I16) : decCmd (encCmd f l r t) = some ⟨f, l, r, t⟩ := by
  simp [encCmd, i16Bytes, decCmd]

/-! ### Encoding a decoding (R92) -/

/-- Six bytes are the encoding of a telemetry triple (R89). -/
theorem exists_encTlm {b : List Byte} (h : b.length = 6) :
    ∃ t : Telemetry, encTlm t.yaw t.pitch t.roll = b := by
  match b, h with
  | [p0, p1, p2, p3, p4, p5], _ =>
    exact ⟨⟨i16OfBytes p0 p1, i16OfBytes p2 p3, i16OfBytes p4 p5⟩, by simp [encTlm, i16Bytes_i16OfBytes]⟩

/-- Seven bytes are the encoding of a command (R86). -/
theorem exists_encCmd {b : List Byte} (h : b.length = 7) :
    ∃ c : WireCommand, encCmd c.shot c.leftEngine c.rightEngine c.towerH = b := by
  match b, h with
  | [c0, c1, c2, c3, c4, c5, c6], _ =>
    exact ⟨⟨c0, i16OfBytes c1 c2, i16OfBytes c3 c4, i16OfBytes c5 c6⟩, by simp [encCmd, i16Bytes_i16OfBytes]⟩

/-- Settles O9: every string of a layout's length is an encoding, and decoding undoes encoding. -/
theorem codecRoundTrips : Obligations.CodecRoundTrips := by
  refine ⟨decTlm_encTlm, fun b hb => ?tlm, decCmd_encCmd, fun b hb => ?cmd⟩
  case tlm =>
    obtain ⟨t, rfl⟩ := exists_encTlm hb
    exact ⟨t, decTlm_encTlm t.yaw t.pitch t.roll, rfl⟩
  case cmd =>
    obtain ⟨c, rfl⟩ := exists_encCmd hb
    exact ⟨c, decCmd_encCmd c.shot c.leftEngine c.rightEngine c.towerH, rfl⟩

/-! ### Degrees (R91) -/

/-- DEG with the parameters of R7. -/
theorem deg_eq (v : I16) : deg v = (v.toInt : Rat) * 360 / 32767 := by
  simp [deg, Config.degNum, Config.degDen]

/-- DEG tells raw angles apart: both scalings cancel, then the cast, then two's complement (R91). -/
theorem deg_injective : Function.Injective deg := by
  intro v w h
  have hden : (32767 : Rat) ≠ 0 := by decide
  have hnum : (360 : Rat) ≠ 0 := by decide
  rw [deg_eq, deg_eq, div_left_inj' hden, mul_left_inj' hnum, Int.cast_inj] at h
  exact BitVec.toInt_inj.mp h

/-- The value of DEG at a raw angle whose integer is known (R91). -/
theorem deg_of_toInt {v : I16} {n : Int} (h : v.toInt = n) : deg v = (n : Rat) * 360 / 32767 := by
  rw [deg_eq, h]

/-- Settles O10: DEG is a scaling, evaluated at the five raw angles R91 lists. -/
theorem degreesLoseNothing : Obligations.DegreesLoseNothing := by
  refine ⟨deg_eq, deg_injective, ?maximum, ?minimum, ?zero, ?half, ?below⟩
  case maximum => rw [deg_of_toInt (n := 32767) (by decide)]; norm_num
  case minimum => rw [deg_of_toInt (n := -32767) (by decide)]; norm_num
  case zero => rw [deg_of_toInt (n := 0) (by decide)]; norm_num
  case half => rw [deg_of_toInt (n := 16384) (by decide)]; norm_num
  case below => rw [deg_of_toInt (n := -32768) (by decide)]; norm_num

end Sys2Proof.Machine
end

section
/-! The Frame Synchronizer as an automaton on the stream (spec/41_frame_sync.md R95 to R101): when SYNC waits, what
it skips and what it takes, and why it does not matter where the stream is cut. -/

namespace Sys2Proof.Machine

/-! ### The receive operations (R96, R97) -/

/-- RXD is SYNC on the bytes held and received (R97). -/
theorem exec_rxd (d : List Byte) (s : State) :
    exec (.rxd d) s = .next (sync { s with buf := s.buf ++ d }) := by
  rw [← State.bufAppendAll_eq]; rfl

/-- RXB is RXD of its byte (R96). -/
theorem exec_rxb (b : Byte) (s : State) : exec (.rxb b) s = exec (.rxd [b]) s := rfl

/-- RXD leaves a state R25 allows. -/
theorem syncInv_receive {s : State} (hs : SyncInv s) (d : List Byte) :
    SyncInv (sync { s with buf := s.buf ++ d }) := by
  obtain ⟨frames, gap, h⟩ := sync_decodes _ (lockedOnMarker_append hs d)
  exact h.syncInv

/-! ### SYNC, by what the buffer begins with (R95) -/

/-- A state in which SYNC waits for more bytes: Seeking below two, or Locked below a whole frame. -/
abbrev Waiting (s : State) : Prop :=
  (s.syncst = .seeking ∧ s.buf.length ≤ 1) ∨ (s.syncst = .locked ∧ s.buf.length ≤ 7)

/-- Between operations SYNC waits (10_state.md R25). -/
theorem SyncInv.waiting {s : State} (h : SyncInv s) : Waiting s :=
  h.imp id fun ⟨hlocked, _, hle, _⟩ => ⟨hlocked, hle⟩

/-- A Locked synchronizer has nothing to seek. -/
theorem syncSeek_of_locked {s : State} (hs : s.syncst = .locked) : syncSeek s = s := by
  simp [syncSeek, hs]

/-- Waiting changes nothing. -/
theorem sync_of_waiting {s : State} (h : Waiting s) : sync s = s := by
  obtain ⟨hs, hle⟩ | ⟨hs, hle⟩ := h
  · have hlt : s.buf.length < Config.markerLen := Nat.lt_succ_of_le hle
    have hseek : syncSeek s = s := by simp [syncSeek, hs, hlt]
    rw [sync_eq, hseek, if_neg (by simp [hs])]
  · rw [sync_eq, syncSeek_of_locked hs, if_neg (by omega)]

/-- A Locked synchronizer that holds a whole frame publishes it and goes on with what follows. -/
theorem sync_of_locked_frame {s : State} {m0 m1 p0 p1 p2 p3 p4 p5 : Byte} {rest : List Byte}
    (hs : s.syncst = .locked) (hb : s.buf = m0 :: m1 :: p0 :: p1 :: p2 :: p3 :: p4 :: p5 :: rest) :
    sync s = sync { s with
      buf := rest, syncst := .seeking, wdcnt := 500, link := true
      outPort := s.outPort ++ (if s.link = true then [] else [.stat 1]) ++
        [.ypr (i16OfBytes p0 p1) (i16OfBytes p2 p3) (i16OfBytes p4 p5)] } := by
  rw [sync_eq, syncSeek_of_locked hs, if_pos ⟨hs, by simp [hb]⟩, syncFrame_eq s _ _ _ _ _ _ _ _ _ hb]

/-- On a marker in front the synchronizer locks. -/
theorem sync_of_marker {s : State} {rest : List Byte} (hs : s.syncst = .seeking)
    (hb : s.buf = 0x55 :: 0x55 :: rest) : sync s = sync { s with syncst := .locked } := by
  rw [sync_eq s, sync_eq { s with syncst := .locked }, syncSeek_of_marker hs hb, syncSeek_of_locked rfl]

/-- A byte that does not begin a marker is skipped by the Seeking part. -/
theorem syncSeek_skip_byte {s : State} {a b : Byte} (l : List Byte) (hs : s.syncst = .seeking)
    (hab : ¬ (a = 0x55 ∧ b = 0x55)) :
    syncSeek { s with buf := a :: b :: l } = syncSeek { s with buf := b :: l } := by
  have hfind : find2 Config.marker0 Config.marker1 (a :: b :: l) =
      (find2 Config.marker0 Config.marker1 (b :: l)).map (· + 1) := if_neg hab
  cases l with
  | nil =>
    have hnone : find2 Config.marker0 Config.marker1 [a, b] = none := hfind
    simp [syncSeek, hs, hnone, Config.markerLen, State.bufKeepLast, State.bufDrop]
  | cons c l =>
    cases hf : find2 Config.marker0 Config.marker1 (b :: c :: l) <;>
      simp [syncSeek, hs, hfind, hf, Config.markerLen, State.bufKeepLast, State.bufDrop]

/-- A string without a pair has none in front and none further on. -/
theorem noMarkerPair_cons_cons {a b : Byte} {l : List Byte} (h : NoMarkerPair (a :: b :: l)) :
    ¬ (a = 0x55 ∧ b = 0x55) ∧ NoMarkerPair (b :: l) :=
  ⟨by simpa using h 0, fun k => by simpa using h (k + 1)⟩

/-- A gap in which no marker begins, not even one that ends with the byte after it, is skipped. -/
theorem sync_skip {s : State} {g : List Byte} {b : Byte} (l : List Byte) (hs : s.syncst = .seeking)
    (hg : NoMarkerPair (g ++ [b])) :
    sync { s with buf := g ++ b :: l } = sync { s with buf := b :: l } := by
  induction g with
  | nil => rfl
  | cons a g ih =>
    obtain ⟨c, g', hcons⟩ : ∃ c g', g ++ [b] = c :: g' := List.exists_cons_of_ne_nil (by simp)
    have hbuf : g ++ b :: l = c :: (g' ++ l) := by
      rw [List.append_cons, hcons, List.cons_append]
    rw [List.cons_append, hcons] at hg
    obtain ⟨hac, hrest⟩ := noMarkerPair_cons_cons hg
    rw [← ih (hcons ▸ hrest), List.cons_append, hbuf, sync_eq, syncSeek_skip_byte _ hs hac, ← sync_eq]

/-! ### Where the stream is cut does not matter (R99) -/

/-- Bytes that arrive after the Seeking part of a pass could as well have arrived before it: what it dropped
holds no marker, nor the beginning of one. -/
theorem sync_append_syncSeek (s : State) (d : List Byte) :
    sync { syncSeek s with buf := (syncSeek s).buf ++ d } = sync { s with buf := s.buf ++ d } := by
  obtain ⟨-, h⟩ | ⟨-, -, h⟩ | ⟨hs, hle, hf, h⟩ | ⟨i, rest, hs, hf, hd, h⟩ := syncSeek_cases s
  · rw [h]
  · rw [h]
  · obtain ⟨g, b, hgb⟩ : ∃ g b, s.buf = g ++ [b] :=
      (List.eq_nil_or_concat' s.buf).resolve_left (List.ne_nil_of_length_pos (by omega))
    have hlast : s.buf.drop (s.buf.length - 1) = [b] := by simp [hgb]
    have hgap : NoMarkerPair (g ++ [b]) := hgb ▸ find2_none hf
    rw [h, hlast, hgb, List.append_assoc]
    exact (sync_skip d hs hgap).symm
  · have hall : s.buf ++ d = s.buf.take i ++ 0x55 :: 0x55 :: (rest ++ d) := by
      conv_lhs => rw [← List.take_append_drop i s.buf, hd, List.append_assoc]
      rfl
    rw [h, hall, sync_skip _ hs (noMarkerPair_before_find2 hf hd)]
    exact (sync_of_marker (s := { s with buf := 0x55 :: 0x55 :: (rest ++ d) }) hs rfl).symm

/-- Bytes that arrive after SYNC could as well have arrived before it: each frame it took stands before them. -/
theorem sync_append_sync (s : State) (d : List Byte) :
    sync { sync s with buf := (sync s).buf ++ d } = sync { s with buf := s.buf ++ d } := by
  refine sync_induction
    (P := fun s t => sync { t with buf := t.buf ++ d } = sync { s with buf := s.buf ++ d })
    (fun s _ => sync_append_syncSeek s d) (fun s t hlocked h8 ih => ?_) s
  obtain ⟨_, _, _, _, _, _, _, _, rest, hb⟩ := eight_bytes h8
  rw [syncFrame_eq _ _ _ _ _ _ _ _ _ _ hb] at ih
  rw [ih, ← sync_append_syncSeek s d]
  exact (sync_of_locked_frame (s := { syncSeek s with buf := (syncSeek s).buf ++ d }) hlocked
    (congrArg (· ++ d) hb)).symm

/-- Reception in pieces, each an operation that is RXD of its bytes, is the RXD of all their bytes. -/
theorem execAll_receive {α : Type} {i : α → Instr} {bytes : α → List Byte}
    (hi : ∀ a s, exec (i a) s = exec (.rxd (bytes a)) s) (l : List α) {s : State} (hs : SyncInv s) :
    exec (.rxd (l.flatMap bytes)) s = execAll (l.map i) s := by
  induction l generalizing s with
  | nil =>
    rw [List.flatMap_nil, exec_rxd, List.append_nil, sync_of_waiting hs.waiting]
    rfl
  | cons a l ih =>
    rw [List.map_cons, execAll, hi, exec_rxd (bytes a)]
    calc exec (.rxd ((a :: l).flatMap bytes)) s
        = .next (sync { s with buf := s.buf ++ bytes a ++ l.flatMap bytes }) := by
          rw [exec_rxd, List.flatMap_cons, List.append_assoc]
      _ = exec (.rxd (l.flatMap bytes)) (sync { s with buf := s.buf ++ bytes a }) := by
          rw [exec_rxd, sync_append_sync]
      _ = execAll (l.map i) (sync { s with buf := s.buf ++ bytes a }) := ih (syncInv_receive hs _)

/-- Settles O15: bytes and parts are two ways to cut the stream. -/
theorem rxdDoesNotDependOnChunking : Obligations.RxdDoesNotDependOnChunking := by
  intro s hs
  refine ⟨fun d => ?bytes, fun parts => ?parts⟩
  case bytes => simpa using execAll_receive exec_rxb d hs
  case parts => simpa using execAll_receive (i := .rxd) (bytes := id) (fun _ _ => rfl) parts hs

/-- Settles O17: between operations SYNC waits. -/
theorem rxdOfNoBytesChangesNothing : Obligations.RxdOfNoBytesChangesNothing := by
  intro s hs
  rw [exec_rxd, List.append_nil, sync_of_waiting hs.waiting]

/-! ### Byte by byte (R96) -/

/-- Settles O14: the byte is waited with, completes a marker, shows that none begins before it, or completes a
frame. -/
theorem rxbIsAByteAutomaton : Obligations.RxbIsAByteAutomaton := by
  intro b s
  simp only [exec_rxb, exec_rxd, Host.Outcome.next.injEq]
  refine ⟨fun hs hb => ?first, fun h hs hb hm => ?marker, fun h hs hb hm => ?noMarker,
    fun hs _ hle => ?payload, fun m0 m1 p0 p1 p2 p3 p4 hs hb => ?frame⟩
  case first =>
    rw [hb]
    exact sync_of_waiting (.inl ⟨hs, le_rfl⟩)
  case marker =>
    obtain ⟨rfl, rfl⟩ := hm
    rw [hb]
    exact Eq.trans (sync_of_marker hs rfl) (sync_of_waiting (.inr ⟨rfl, by simp⟩))
  case noMarker =>
    have hgap : NoMarkerPair ([h] ++ [b]) := by
      intro k
      cases k with
      | zero => simpa using hm
      | succ k => simp
    rw [hb, sync_skip [] hs hgap]
    exact sync_of_waiting (.inl ⟨hs, le_rfl⟩)
  case payload => exact sync_of_waiting (.inr ⟨hs, by simp; omega⟩)
  case frame =>
    rw [hb]
    exact Eq.trans (sync_of_locked_frame hs rfl) (sync_of_waiting (.inl ⟨rfl, by simp⟩))

/-! ### Garbage (R100, R101) -/

/-- Settles O19: all but the last byte is skipped, and with one byte SYNC waits. -/
theorem garbageIsSilentlyAbsorbed : Obligations.GarbageIsSilentlyAbsorbed := by
  intro g s hs hb hg
  rw [exec_rxd, hb, List.nil_append, Host.Outcome.next.injEq]
  obtain rfl | ⟨g, b, rfl⟩ := List.eq_nil_or_concat' g
  · exact sync_of_waiting (.inl ⟨hs, by simp⟩)
  · have hlast : (g ++ [b]).drop ((g ++ [b]).length - 1) = [b] := by simp
    rw [sync_skip [] hs hg, hlast]
    exact sync_of_waiting (.inl ⟨hs, le_rfl⟩)

/-- Garbage without a pair that does not end in 0x55 forms none with a 0x55 that follows (R100). -/
theorem noMarkerPair_append_marker {g : List Byte} (hg : NoMarkerPair g) (hlast : g.getLast? ≠ some 0x55) :
    NoMarkerPair (g ++ [0x55]) := by
  rintro k ⟨h0, h1⟩
  obtain hlt | heq | hgt := lt_trichotomy (k + 1) g.length
  · rw [List.getElem?_append_left (by omega)] at h0 h1
    exact hg k ⟨h0, h1⟩
  · rw [List.getElem?_append_left (by omega)] at h0
    rw [List.getLast?_eq_getElem?] at hlast
    exact hlast (by rw [← heq]; exact h0)
  · rw [List.getElem?_eq_none (by simp; omega)] at h1
    cases h1

/-- A whole frame in front of at most one more byte is taken, and the byte is held. -/
theorem sync_of_frame_then {s : State} {p0 p1 p2 p3 p4 p5 : Byte} {rest : List Byte}
    (hs : s.syncst = .seeking) (hrest : rest.length ≤ 1)
    (hb : s.buf = 0x55 :: 0x55 :: p0 :: p1 :: p2 :: p3 :: p4 :: p5 :: rest) :
    sync s = { s with
      buf := rest, wdcnt := 500, link := true
      outPort := s.outPort ++ (if s.link = true then [] else [.stat 1]) ++
        [.ypr (i16OfBytes p0 p1) (i16OfBytes p2 p3) (i16OfBytes p4 p5)] } := by
  rw [sync_of_marker hs hb, sync_of_locked_frame (s := { s with syncst := .locked }) rfl hb, ← hs]
  exact sync_of_waiting (.inl ⟨hs, hrest⟩)

/-- Settles O18: the garbage is skipped up to the first marker, which a last 0x55 moves one byte forward. -/
theorem resynchronisationAfterGarbage : Obligations.ResynchronisationAfterGarbage := by
  intro g p0 p1 p2 p3 p4 p5 s hs hb hg
  simp only [exec_rxd, hb, List.nil_append, Host.Outcome.next.injEq]
  refine ⟨fun hlast => ?aligned, fun hlast => ?early⟩
  case aligned =>
    rw [sync_skip _ hs (noMarkerPair_append_marker hg hlast)]
    exact sync_of_frame_then hs (by simp) rfl
  case early =>
    obtain ⟨g, rfl⟩ := List.getLast?_eq_some_iff.mp hlast
    rw [List.append_assoc, List.singleton_append, sync_skip _ hs hg]
    exact sync_of_frame_then hs (by simp) rfl

/-! ### What RXD emits (R97), and RXE (R98) -/

/-- Settles O16: of the frames RXD decodes (`rxdDecodesTheStreamFrameByFrame`), there are none, or each is a
YPR. -/
theorem rxdAppendsAtMostOneStatThenYprs : Obligations.RxdAppendsAtMostOneStatThenYprs := by
  intro d s hs
  obtain ⟨t, frames, gap, hexec, hinv, -, -, -, hcount, ht⟩ := rxdDecodesTheStreamFrameByFrame d s hs
  obtain rfl | hne := eq_or_ne frames []
  case inl =>
    refine ⟨t, [], hexec, hinv, ?_, .inl ⟨rfl, by rw [ht]; rfl, by rw [ht]; rfl⟩⟩
    rw [ht]
    simp
  case inr =>
    simp only [hne, if_false, false_or] at ht
    refine ⟨t, _, hexec, hinv, ?_, .inr ⟨by rw [ht], by rw [ht],
      frames.map fun f => .ypr f.2.1 f.2.2.1 f.2.2.2, rfl, ?_, ?_, ?_⟩⟩
    · rw [ht, List.append_assoc]
    · exact List.forall_mem_map.mpr fun _ _ => rfl
    · exact Nat.succ_le_of_lt (by simpa [List.length_pos_iff] using hne)
    · simpa using hcount

/-- Settles O21: the one class RXE raises has code 0x01. -/
theorem readFailureIsOnlyLogged : Obligations.ReadFailureIsOnlyLogged := raise_eq .rdFail

end Sys2Proof.Machine
end

section
/-! The Liveness Watchdog over runs of TICK and of frames (spec/42_watchdog.md R105 to R112): what one TICK does,
what any number of them makes of the watchdog, and what a frame and the TICKs after it leave. -/

namespace Sys2Proof.Machine

/-! ### One TICK (R108, R109) -/

/-- The two steps of TICK write the two timers and LINK, and emit its records. -/
theorem txStep_wdStep_eq (s : State) :
    txStep (wdStep s) = { s with
      wdcnt := s.wdcnt - 1
      link := if s.wdcnt = 1 then false else s.link
      txcnt := if s.txcnt + 1 = 50 then 0 else s.txcnt + 1
      outPort := s.outPort ++ tickRecords s } := by
  rw [tickRecords, ← List.append_assoc, txStep_eq, wdStep_eq]

/-- Settles O22: the two steps with their records written out; at WDCNT = 0 there is nothing to count down. -/
theorem tickRunsWatchdogThenSend : Obligations.TickRunsWatchdogThenSend := by
  intro s
  have hwd : (if s.wdcnt = 0 then 0 else s.wdcnt - 1) = s.wdcnt - 1 := by split <;> omega
  have htick : exec .tick s = .next (txStep (wdStep s)) := rfl
  rw [htick, txStep_wdStep_eq, tickRecords, ← List.append_assoc]
  simp only [hwd]
  rfl

/-- Of the records of TICK, the announcement is the watchdog's. -/
theorem filter_isStat_tickRecords (s : State) :
    (tickRecords s).filter Record.isStat = if s.wdcnt = 1 ∧ s.link = true then [.stat 0] else [] := by
  have hsend (c : Prop) [Decidable c] (frame : List Byte) :
      (if c then [Record.txf frame] else []).filter Record.isStat = [] := by split <;> rfl
  rw [tickRecords, List.filter_append, hsend, List.append_nil]
  split <;> rfl

/-! ### Runs (00_scope.md R16) -/

/-- A run goes on from the state its first instruction answers. -/
theorem execAll_cons {i : Instr} {s t : State} (h : exec i s = .next t) (l : List Instr) :
    execAll (i :: l) s = execAll l t := by
  rw [execAll, h]

/-- A run goes on from the state its first part answers. -/
theorem execAll_append {l : List Instr} {s t : State} (h : execAll l s = .next t) (l' : List Instr) :
    execAll (l ++ l') s = execAll l' t := by
  induction l generalizing s with
  | nil => rw [Host.Outcome.next.inj h, List.nil_append]
  | cons i l ih =>
    obtain ⟨u, hu⟩ := exec_next i s
    rw [execAll_cons hu] at h
    rw [List.cons_append, execAll_cons hu, ih h]

/-! ### Any number of TICKs (R111, R112) -/

/-- The watchdog of `s` reaches 0 during `k` TICKs. -/
abbrev ExpiresWithin (k : Nat) (s : State) : Prop := 0 < s.wdcnt ∧ s.wdcnt ≤ k

/-- The watchdog expires on the first of `k + 1` TICKs, or during the other `k`. -/
theorem expiresWithin_succ (k : Nat) (s : State) :
    ExpiresWithin (k + 1) s ↔ s.wdcnt = 1 ∨ ExpiresWithin k (txStep (wdStep s)) := by
  simp only [ExpiresWithin, txStep_wdStep_eq]
  omega

/-- `k` TICKs count the watchdog down, and if it expires on the way take the link offline with one announcement;
else they write the send timer only. -/
theorem execAll_ticks (k : Nat) (s : State) :
    ∃ n rs, execAll (List.replicate k .tick) s = .next { s with
        wdcnt := s.wdcnt - k
        link := if ExpiresWithin k s then false else s.link
        txcnt := n
        outPort := s.outPort ++ rs } ∧
      rs.filter Record.isStat = if ExpiresWithin k s ∧ s.link = true then [.stat 0] else [] := by
  induction k generalizing s with
  | zero =>
    have hno : ¬ ExpiresWithin 0 s := by omega
    exact ⟨s.txcnt, [], by simp [execAll, hno], by simp [hno]⟩
  | succ k ih =>
    have htick : exec .tick s = .next (txStep (wdStep s)) := rfl
    obtain ⟨n, rs, hexec, hstat⟩ := ih (txStep (wdStep s))
    refine ⟨n, tickRecords s ++ rs, ?_, ?_⟩
    · rw [List.replicate_succ, execAll_cons htick, hexec]
      by_cases h1 : s.wdcnt = 1 <;>
        simp [txStep_wdStep_eq, expiresWithin_succ k s, h1, Nat.sub_sub, Nat.add_comm]
    · rw [List.filter_append, hstat, filter_isStat_tickRecords]
      by_cases h1 : s.wdcnt = 1 <;> simp [txStep_wdStep_eq, expiresWithin_succ k s, h1]

/-- Settles O23: `execAll_ticks` on either side of the count. -/
theorem watchdogExpiresOnceAtItsCount : Obligations.WatchdogExpiresOnceAtItsCount := by
  intro s k hlink hw
  obtain ⟨n, rs, hexec, hstat⟩ := execAll_ticks k s
  refine ⟨_, rs, hexec, rfl, fun hlt => ?before, fun hle => ?expired⟩
  case before =>
    have hno : ¬ ExpiresWithin k s := by omega
    exact ⟨by simp [hno, hlink], rfl, by simp [hstat, hno]⟩
  case expired =>
    have hexp : ExpiresWithin k s := ⟨hw, hle⟩
    exact ⟨by simp [hexp], Nat.sub_eq_zero_of_le hle, by simp [hstat, hexp, hlink]⟩

/-! ### Frames with TICKs after them (R106, R107, R110) -/

/-- The synchronizer of `s` waits for a frame from its first byte (41_frame_sync.md R94, R95). -/
abbrev Aligned (s : State) : Prop := s.syncst = .seeking ∧ s.buf = []

/-- A frame, then as many TICKs as its last component says. -/
def framePeriod (f : I16 × I16 × I16 × Nat) : List Instr :=
  .rxd ([0x55, 0x55] ++ encTlm f.1 f.2.1 f.2.2.1) :: List.replicate f.2.2.2 .tick

/-- A frame arms the watchdog, brings the link online, with an announcement if it was not, and is published. -/
theorem exec_rxd_frame (y p r : I16) {s : State} (hs : Aligned s) :
    ∃ t, exec (.rxd ([0x55, 0x55] ++ encTlm y p r)) s = .next t ∧ Aligned t ∧ t.wdcnt = 500 ∧ t.link = true ∧
      t.outPort = s.outPort ++ (if s.link = true then [] else [.stat 1]) ++ [.ypr y p r] := by
  obtain ⟨hrxd, hframe⟩ := alignedTelemetryFrameIsPublished y p r s
  exact ⟨_, hrxd.symm.trans (hframe hs.1 hs.2), hs, rfl, rfl, rfl⟩

/-- Fewer than 500 TICKs after a frame leave the link online, and after the announcement a link that was offline
is due there is no other. -/
theorem execAll_framePeriod {f : I16 × I16 × I16 × Nat} (hf : f.2.2.2 < 500) {s : State} (hs : Aligned s) :
    ∃ t rs, execAll (framePeriod f) s = .next t ∧ Aligned t ∧ t.link = true ∧
      t.outPort = s.outPort ++ (if s.link = true then [] else [.stat 1]) ++ rs ∧
      rs.filter Record.isStat = [] := by
  obtain ⟨y, p, r, k⟩ := f
  obtain ⟨u, hrxd, hu, hw, hlink, hout⟩ := exec_rxd_frame y p r hs
  obtain ⟨n, rs, hticks, hstat⟩ := execAll_ticks k u
  have hno : ¬ ExpiresWithin k u := fun ⟨_, hle⟩ => (hle.trans_lt hf).ne hw
  refine ⟨_, .ypr y p r :: rs, (execAll_cons hrxd _).trans hticks, hu, ?_, ?_, ?_⟩
  · simp [hno, hlink]
  · simp [hout]
  · simp [Record.isStat, hstat, hno]

/-- While frames keep coming in time, an online link stays online and nothing is announced. -/
theorem execAll_framePeriods_online {frames : List (I16 × I16 × I16 × Nat)} (hf : ∀ f ∈ frames, f.2.2.2 < 500)
    {s : State} (hs : Aligned s) (hlink : s.link = true) :
    ∃ t rs, execAll (frames.flatMap framePeriod) s = .next t ∧ t.link = true ∧
      t.outPort = s.outPort ++ rs ∧ rs.filter Record.isStat = [] := by
  induction frames generalizing s with
  | nil => exact ⟨s, [], rfl, hlink, (List.append_nil _).symm, rfl⟩
  | cons f frames ih =>
    obtain ⟨hfirst, hrest⟩ := List.forall_mem_cons.mp hf
    obtain ⟨u, rs, hperiod, hu, hulink, huout, hstat⟩ := execAll_framePeriod hfirst hs
    obtain ⟨t, rs', hexec, htlink, htout, hstat'⟩ := ih hrest hu hulink
    rw [List.flatMap_cons, execAll_append hperiod]
    exact ⟨t, rs ++ rs', hexec, htlink, by simp [htout, huout, hlink], by simp [hstat, hstat']⟩

/-- Settles O24: the first frame brings the link online, the others find it so. -/
theorem consecutiveFramesAnnounceOnlineOnce : Obligations.ConsecutiveFramesAnnounceOnlineOnce := by
  intro frames s hs hb hlink hne hf
  obtain ⟨f, frames, rfl⟩ := List.exists_cons_of_ne_nil hne
  obtain ⟨hfirst, hrest⟩ := List.forall_mem_cons.mp hf
  obtain ⟨u, rs, hperiod, hu, hulink, huout, hstat⟩ := execAll_framePeriod hfirst ⟨hs, hb⟩
  obtain ⟨t, rs', hexec, htlink, htout, hstat'⟩ := execAll_framePeriods_online hrest hu hulink
  refine ⟨t, .stat 1 :: (rs ++ rs'), (execAll_append hperiod _).trans hexec, htlink, ?_, rfl, ?_⟩
  · simp [htout, huout, hlink]
  · rw [List.filter_cons_of_pos rfl, List.filter_append, hstat, hstat', List.append_nil]

end Sys2Proof.Machine
end

section
/-! The Command Transmitter (spec/43_transmitter.md R115 to R123): what TICK does between two send ticks and at
one, which instruction can send at all, and the operations LNKO, LNKC and TXR. -/

namespace Sys2Proof.Machine

/-! ### The send timer (R115, R116) -/

/-- A TICK that neither expires the watchdog nor brings the count to 50 moves the two counters only. -/
theorem exec_tick_quiet {s : State} (hwd : s.wdcnt ≠ 1) (htx : s.txcnt + 1 ≠ 50) :
    exec .tick s = .next { s with wdcnt := s.wdcnt - 1, txcnt := s.txcnt + 1 } := by
  have htick : exec .tick s = .next (txStep (wdStep s)) := rfl
  simp [htick, txStep_wdStep_eq, tickRecords, hwd, htx]

/-- At the fiftieth count, open and online, TICK restarts the send timer and sends the frame of CMD. -/
theorem exec_tick_send {s : State} (hwd : s.wdcnt ≠ 1) (htx : s.txcnt + 1 = 50) (hopen : s.lnkopen = true)
    (hlink : s.link = true) :
    exec .tick s = .next { s with
      wdcnt := s.wdcnt - 1, txcnt := 0, outPort := s.outPort ++ [.txf (commandFrame s.cmd)] } := by
  have htick : exec .tick s = .next (txStep (wdStep s)) := rfl
  simp [htick, txStep_wdStep_eq, tickRecords, hwd, htx, hopen, hlink]

/-- TICKs short of the send tick and of the watchdog's expiry move the two counters only. -/
theorem execAll_ticks_quiet (k : Nat) (s : State) (hwd : ¬ ExpiresWithin k s) (htx : s.txcnt + k < 50) :
    execAll (List.replicate k .tick) s = .next { s with wdcnt := s.wdcnt - k, txcnt := s.txcnt + k } := by
  induction k generalizing s with
  | zero => rfl
  | succ k ih =>
    have hfirst := exec_tick_quiet (s := s) (by omega) (by omega)
    rw [List.replicate_succ, execAll_cons hfirst, ih _ (by simp only [ExpiresWithin]; omega) (by simp only; omega)]
    simp only [Nat.sub_sub, Nat.add_assoc, Nat.add_comm 1 k]

/-- Settles O25: the TICKs up to count 49 are quiet, and the one after them sends. -/
theorem commandIsSentAtTheNextSendTick : Obligations.CommandIsSentAtTheNextSendTick := by
  intro s hopen hlink htx hwd
  have hquiet := execAll_ticks_quiet (49 - s.txcnt) s (by omega) (by omega)
  have hcount : s.txcnt + (49 - s.txcnt) = 49 := by omega
  have hticks : 50 - s.txcnt = 49 - s.txcnt + 1 := by omega
  rw [hcount] at hquiet
  refine ⟨hquiet, ?_⟩
  have hsend := exec_tick_send (s := { s with wdcnt := s.wdcnt - (49 - s.txcnt), txcnt := 49 })
    (by simp only; omega) rfl hopen hlink
  rw [hticks, List.replicate_succ', execAll_append hquiet, execAll_cons hsend, Nat.sub_add_eq]
  rfl

/-! ### What can send (R114, R123) -/

/-- TICK sends at the fiftieth count, open and with a link its watchdog step leaves online, and what it sends is the
frame of CMD. -/
theorem txf_mem_tickRecords_iff (f : List Byte) (s : State) :
    .txf f ∈ tickRecords s ↔
      (s.txcnt + 1 = 50 ∧ s.lnkopen = true ∧ s.wdcnt ≠ 1 ∧ s.link = true) ∧ f = commandFrame s.cmd := by
  simp [tickRecords]

/-- No instruction of the event port stands for a record of its own. -/
theorem rowRecord_of_event {i : Instr} (hi : i.space = .event) : rowRecord i = none := by
  cases i with
  | frameCmd | txf | ypr | stat | infl | log => cases hi
  | _ => rfl

/-- On the event port a TXF is among TICK's records or among none. -/
theorem Emission.eq_tick_of_txf_mem {i : Instr} {s : State} {rs : List Record} {f : List Byte}
    (he : Emission s i rs) (hi : i.space = .event) (hf : .txf f ∈ rs) : i = .tick ∧ rs = tickRecords s := by
  cases he with
  | tick => exact ⟨rfl, rfl⟩
  | silent => cases hf
  | error | pubp => cases List.mem_singleton.mp hf
  | receive _ h =>
    obtain hstat | hypr := h _ hf
    · cases hstat
    · cases hypr
  | row h => cases (rowRecord_of_event hi).symm.trans h

/-- Settles O26: a TXF makes the instruction TICK, whose records say when and what it sends; the watchdog step did
not take that link offline. -/
theorem onlyAnOnlineTickTransmits : Obligations.OnlyAnOnlineTickTransmits := by
  intro i s t f hi h
  obtain ⟨rs, hout, he⟩ := emits_of_exec h
  refine ⟨rs, hout, fun hf => ?_⟩
  obtain ⟨rfl, rfl⟩ := he.eq_tick_of_txf_mem hi hf
  obtain ⟨⟨htx, hopen, hwd, hlink⟩, hframe⟩ := (txf_mem_tickRecords_iff f s).mp hf
  have ht := Host.Outcome.next.inj ((exec_tick_send hwd htx hopen hlink).symm.trans h)
  exact ⟨rfl, htx, hopen, hlink, ht ▸ hlink, hframe⟩

/-! ### LNKO, LNKC, TXR (R119 to R121) -/

/-- Settles O28: the two operations are these record updates. -/
theorem openAndCloseWriteOneBit : Obligations.OpenAndCloseWriteOneBit := fun _ => ⟨rfl, rfl⟩

/-- Settles O29: the branches of TXR, whose two errors are reported with the codes 0x02 and 0x03. -/
theorem writeResultIsOnlyLogged : Obligations.WriteResultIsOnlyLogged := by
  intro w s
  have htxr : exec (.txr w) s = execTxr w s := rfl
  have hlen : Config.txFrameLen = 9 := rfl
  rw [htxr, execTxr, hlen]
  refine ⟨fun hfail => ?failed, fun hshort => ?short, fun hlo hhi => ?written⟩
  case failed => rw [if_pos hfail]; exact raise_eq .wrFail s
  case short =>
    rw [if_neg (by bv_omega), if_pos (Nat.lt_succ_of_le hshort)]
    exact raise_eq .shortWr s
  case written => rw [if_neg (by bv_omega), if_neg (Nat.not_lt.mpr hlo)]

end Sys2Proof.Machine
end

section
/-! The mixer's arithmetic (spec/44_aggregator.md R125 to R127, R145): rounding toward zero is odd and monotone and
leaves integers alone, and what that makes of `shape`, of the clamp and of the percent rule. -/

namespace Sys2Proof.Machine

/-! ### Rounding toward zero (00_scope.md R12) -/

/-- Integer division toward zero is one truncation of the exact quotient (44_aggregator.md R145 c). -/
theorem trunc_intCast_div_natCast (a : Int) (b : Nat) : trunc ((a : Rat) / b) = a.tdiv b := by
  have hnonneg {n : Int} (hn : 0 ≤ n) : trunc ((n : Rat) / b) = n.tdiv b := by
    rw [trunc_of_nonneg (div_nonneg (Int.cast_nonneg hn) b.cast_nonneg),
      Rat.floor_intCast_div_natCast, Int.tdiv_eq_ediv_of_nonneg hn]
  obtain ha | ha := le_total 0 a
  · exact hnonneg ha
  · rw [← neg_neg a, Int.cast_neg, neg_div, trunc_neg, Int.neg_tdiv, hnonneg (neg_nonneg.mpr ha)]

/-- An integer is its own truncation. -/
@[simp] theorem trunc_intCast (n : Int) : trunc (n : Rat) = n := by
  simp [trunc]

/-- On a rational that is not positive, rounding toward zero is the ceiling. -/
theorem trunc_of_nonpos {q : Rat} (h : q ≤ 0) : trunc q = ⌈q⌉ := by
  rw [← neg_neg q, trunc_neg, trunc_of_nonneg (neg_nonneg.mpr h), Int.ceil_neg]

/-- Rounding toward zero is monotone: floor and ceiling are, on either side of 0. -/
theorem trunc_mono : Monotone trunc := by
  intro q r hqr
  obtain hq | hq := le_total 0 q
  · rw [trunc_of_nonneg hq, trunc_of_nonneg (hq.trans hqr)]
    exact Int.floor_mono hqr
  obtain hr | hr := le_total 0 r
  · rw [trunc_of_nonpos hq, trunc_of_nonneg hr]
    exact (Int.ceil_le.mpr (by simpa using hq)).trans (Int.floor_nonneg.mpr hr)
  · rw [trunc_of_nonpos hq, trunc_of_nonpos hr]
    exact Int.ceil_mono hqr

/-! ### The shape function (R125, R126) -/

/-- Settles O31: the quotient of the exact integers is one truncation. -/
theorem shapeIsTheTruncatedCube : Obligations.ShapeIsTheTruncatedCube := by
  intro v m
  have h := trunc_intCast_div_natCast (v ^ 3 * m) (32767 ^ 3)
  push_cast at h
  exact h.symm

/-- Odd, because the cube and the quotient are (R126 a). -/
theorem shape_neg (v : Int) (m : Nat) : shape (-v) m = -shape v m := by
  rw [shape, shape, Odd.neg_pow (by decide), neg_mul, Int.neg_tdiv]

/-- Monotone, because the cube, the scaling and the quotient are (R126 b). -/
theorem shape_mono (m : Nat) : Monotone (shape · m) := by
  intro v w hvw
  have hcube : v ^ 3 ≤ w ^ 3 := (Odd.strictMono_pow (by decide)).monotone hvw
  exact Int.tdiv_le_tdiv (by decide) (mul_le_mul_of_nonneg_right hcube m.cast_nonneg)

/-- Full deflection gives the ceiling (R126 c). -/
theorem shape_axisMax (m : Nat) : shape 32767 m = m :=
  Int.mul_tdiv_cancel_left (m : Int) (by decide)

/-- Where the exact magnitude is below 1 the result is 0 (70_reset_and_hazards.md R196). -/
theorem shape_eq_zero {v : Int} {m : Nat} (h : |v| ^ 3 * m < 32767 ^ 3) : shape v m = 0 := by
  have habs : (v ^ 3 * m).natAbs < (32767 ^ 3 : Int).natAbs := by
    rw [← Int.ofNat_lt, Int.natCast_natAbs, abs_mul, abs_pow, Nat.abs_cast]
    exact h
  rw [shape, ← Int.natAbs_eq_zero, Int.natAbs_tdiv]
  exact Nat.div_eq_of_lt habs

/-- For a nominal operand the ceiling is a bound (R126 e): it is the value at either end. -/
theorem abs_shape_le {v : Int} (m : Nat) (h : |v| ≤ 32767) : |shape v m| ≤ m := by
  obtain ⟨hlo, hhi⟩ := abs_le.mp h
  have hlo : shape (-32767) m ≤ shape v m := shape_mono m hlo
  have hhi : shape v m ≤ shape 32767 m := shape_mono m hhi
  rw [shape_neg, shape_axisMax] at hlo
  rw [shape_axisMax] at hhi
  exact abs_le.mpr ⟨hlo, hhi⟩

/-- The dead zone at full ceiling: 1023 is the largest magnitude whose cube is below 32767 ^ 2 (R126 d). -/
theorem shape_deadZone {v : Int} (h : |v| ≤ 1023) : shape v 32767 = 0 := by
  apply shape_eq_zero
  calc |v| ^ 3 * 32767 ≤ 1023 ^ 3 * 32767 := by gcongr
    _ < 32767 ^ 3 := by norm_num

/-- Settles O32: values at 0 and at ceiling 0 lie in the dead zone, those at -32767 follow by oddness. -/
theorem shapeIsOddMonotoneAndBounded : Obligations.ShapeIsOddMonotoneAndBounded := by
  refine ⟨shape_neg, fun v w m => @shape_mono m v w, fun m => ⟨?zero, shape_axisMax m, ?minimum⟩,
    fun v => ?noCeiling, fun v => shape_deadZone, by decide, fun v m => shape_eq_zero,
    fun v m => abs_shape_le m⟩
  case zero => exact shape_eq_zero (by norm_num)
  case minimum => rw [shape_neg, shape_axisMax]
  case noCeiling => exact shape_eq_zero (by norm_num)

/-! ### The clamp (10_state.md R28, R145 f) -/

/-- The clamp of R12, with the bounds of R8. -/
theorem clampCmd_eq (x : Int) : clampCmd x = max (-32767) (min 32767 x) := by
  unfold clampCmd Config.clampLo Config.clampHi
  split
  · omega
  · split <;> omega

/-- What a command register holds of a computed value. -/
theorem toCmd_eq (x : Int) : toCmd x = BitVec.ofInt 16 (max (-32767) (min 32767 x)) := by
  rw [toCmd, clampCmd_eq]

/-- Settles O33: a monotone function commutes with maximum and minimum, and the bounds are integers. -/
theorem clampCommutesWithTrunc : Obligations.ClampCommutesWithTrunc := by
  refine ⟨fun q => ?commutes, fun x => ?fits⟩
  case commutes =>
    have hlo : trunc (-32767) = -32767 := trunc_intCast (-32767)
    have hhi : trunc 32767 = 32767 := trunc_intCast 32767
    rw [clampCmd_eq, trunc_mono.map_max, trunc_mono.map_min, hlo, hhi]
  case fits => rw [toCmd_toInt, clampCmd_eq]

/-! ### The percent rule (R127) -/

/-- PCT2LIM with the parameters of R7 and R8. -/
theorem pct2lim_eq (p : Byte) : pct2lim p = min p.toNat 100 * 32767 / 100 := rfl

end Sys2Proof.Machine
end

section
/-! The Input Aggregator's operations (spec/44_aggregator.md R131 to R144): what each writes, in one equation per
branch, and that a JOY whose axes have been seen changes nothing. -/

namespace Sys2Proof.Machine

/-! ### SHOT, EPWR, CDPD (R133, R135, R141) -/

/-- Settles O36: PCT2LIM is the percent rule, within the ceiling's range and at its end from 100 on. -/
theorem powerLimitsAreStoredOnly : Obligations.PowerLimitsAreStoredOnly := by
  intro pl pr s
  simp only [← pct2lim_eq]
  refine ⟨rfl, pct2lim_le pl, fun h => ?_⟩
  rw [pct2lim_eq, Nat.min_eq_right h]

/-- A fire operand sets the flag unless it is the zero byte (30_encoding.md R69). -/
theorem shotFlag_eq (f : Byte) :
    (if boolOperand f then 1 else 0 : Byte) = if f = 0 then 0 else 1 := by
  by_cases hf : f = 0 <;> simp [boolOperand, hf]

/-- Settles O37: the operation is one record update, with the flag as the operand says. -/
theorem shotSetsTheFireFlag : Obligations.ShotSetsTheFireFlag := by
  intro f s
  rw [← shotFlag_eq]
  rfl

/-- CDPD with finite operands (R141). -/
theorem exec_cdpd_finite {sx sy : Word32} {x y : Rat} (hx : floatOperand sx = some x)
    (hy : floatOperand sy = some y) (s : State) :
    exec (.cdpd sx sy) s = .next { s with cal := ⟨x, y⟩ } := by
  change execCdpd sx sy s = _
  rw [execCdpd, hx, hy]

/-- CDPD with a non-finite operand (R138). -/
theorem exec_cdpd_nonfinite {sx sy : Word32} (h : floatOperand sx = none ∨ floatOperand sy = none)
    (s : State) : exec (.cdpd sx sy) s = raise .num s := by
  change execCdpd sx sy s = _
  unfold execCdpd
  split
  next hx hy => simp [hx, hy] at h
  next => rfl

/-- Settles O39: the two cases of CDPD; the code of E_NUM is 0x04. -/
theorem calibrationIsStoredOnly : Obligations.CalibrationIsStoredOnly := fun _ _ s =>
  ⟨fun h => (exec_cdpd_nonfinite h s).trans (raise_eq .num s), fun _ _ hx hy => exec_cdpd_finite hx hy s⟩

/-! ### TDEV (R130, R139) -/

/-- TDEV with a non-finite operand (R138). -/
theorem exec_tdev_nonfinite {dx dy : Word32} (h : floatOperand dx = none ∨ floatOperand dy = none)
    (s : State) : exec (.tdev dx dy) s = raise .num s := by
  change execTdev dx dy s = _
  unfold execTdev
  split
  next hx hy => simp [hx, hy] at h
  next => rfl

/-- TDEV with finite operands: DEV is stored, then the mode and the scale decide (R139). -/
theorem exec_tdev_finite {dx dy : Word32} {x y : Rat} (hx : floatOperand dx = some x)
    (hy : floatOperand dy = some y) (s : State) :
    exec (.tdev dx dy) s =
      if s.mode ≠ .track then .next { s with dev := ⟨x, y⟩ }
      else if s.cal.x = 0 ∨ s.cal.y = 0 then raise .num { s with dev := ⟨x, y⟩ }
      else .next (storeAim (trackAxis x s.cal.x, trackAxis y s.cal.y) { s with dev := ⟨x, y⟩ }) := by
  change execTdev dx dy s = _
  rw [execTdev, hx, hy]

/-- One axis of TRACK with the parameters of R7. -/
theorem trackAxis_eq (d c : Rat) :
    trackAxis d c = BitVec.ofInt 16 (max (-32767) (min 32767 (trunc (d * 32767 / (c * 90))))) := by
  rw [trackAxis, toCmd_eq]
  rfl

/-- The result gate of aiming as one proposition (R131, R139). -/
theorem storeAim_eq_decide (h v : I16) (s : State) :
    storeAim (h, v) s =
      { s with
        cmd := { s.cmd with towerH := h, gunV := v, cameraV := v }
        dirty := s.dirty || decide (h ≠ s.cmd.towerH ∨ v ≠ s.cmd.gunV ∨ v ≠ s.cmd.cameraV) } := by
  simp [storeAim_eq, bne, beq_eq_decide, Bool.decide_or, Bool.or_assoc]

/-- The result gate of the engines as one proposition (R131). -/
theorem storeDrive_eq_decide (l r : I16) (s : State) :
    storeDrive (l, r) s =
      { s with
        cmd := { s.cmd with leftEngine := l, rightEngine := r }
        dirty := s.dirty || decide (l ≠ s.cmd.leftEngine ∨ r ≠ s.cmd.rightEngine) } := by
  simp [storeDrive_eq, bne, beq_eq_decide, Bool.decide_or]

/-- Settles O38: the four ways TDEV ends, by its operands, the mode and the scale. -/
theorem trackerDeviationRecomputesInTrack : Obligations.TrackerDeviationRecomputesInTrack := by
  intro dx dy s clamp
  refine ⟨fun h => ?refused, fun x y hx hy => ⟨fun hmode => ?search, fun hmode hcal => ?uncalibrated,
    fun hmode hcx hcy => ?tracking⟩⟩
  case refused => rw [exec_tdev_nonfinite h, raise_eq]; rfl
  case search => rw [exec_tdev_finite hx hy, if_pos (by simp [hmode])]
  case uncalibrated =>
    rw [exec_tdev_finite hx hy, if_neg (by simp [hmode]), if_pos hcal, raise_eq]
    rfl
  case tracking =>
    rw [exec_tdev_finite hx hy, if_neg (by simp [hmode]), if_neg (not_or.mpr ⟨hcx, hcy⟩),
      storeAim_eq_decide, trackAxis_eq, trackAxis_eq]

/-! ### JOY (R128, R129, R131) -/

/-- AIM at the default ceiling (R129). -/
theorem aim_eq (a : Axes) :
    aim a = (toCmd (shape a.a2.toInt 32767), toCmd (shape (-a.a5.toInt) 32767)) := rfl

/-- The raw-value gate of aiming (R131). -/
theorem aimChanged_iff (a old : Axes) : aimChanged a old = true ↔ a.a2 ≠ old.a2 ∨ a.a5 ≠ old.a5 := by
  simp [aimChanged]

/-- The raw-value gate of the engines (R131). -/
theorem driveChanged_iff (a old : Axes) : driveChanged a old = true ↔
    a.a0 ≠ old.a0 ∨ a.a1 ≠ old.a1 ∨ a.a6 ≠ old.a6 ∨ a.a7 ≠ old.a7 := by
  simp [driveChanged, or_assoc]

/-- JOY is its aiming part, its drive part, then the last-seen axes (R131). -/
theorem exec_joy (a : Axes) (s : State) :
    exec (.joy a) s = .next { joyDrive a (joyAim a s) with joy := a } := rfl

/-- Aiming behind a raw-value gate `b`, field by field. -/
theorem ite_storeAim (b : Bool) (h v : I16) (s : State) :
    (if b then storeAim (h, v) s else s) =
      { s with
        cmd := { s.cmd with
          towerH := if b then h else s.cmd.towerH
          gunV := if b then v else s.cmd.gunV
          cameraV := if b then v else s.cmd.cameraV }
        dirty := s.dirty ||
          (b && decide (h ≠ s.cmd.towerH ∨ v ≠ s.cmd.gunV ∨ v ≠ s.cmd.cameraV)) } := by
  cases b with
  | false => simp
  | true => exact storeAim_eq_decide h v s

/-- Driving behind a raw-value gate `b`, field by field. -/
theorem ite_storeDrive (b : Bool) (l r : I16) (s : State) :
    (if b then storeDrive (l, r) s else s) =
      { s with
        cmd := { s.cmd with
          leftEngine := if b then l else s.cmd.leftEngine
          rightEngine := if b then r else s.cmd.rightEngine }
        dirty := s.dirty ||
          (b && decide (l ≠ s.cmd.leftEngine ∨ r ≠ s.cmd.rightEngine)) } := by
  cases b with
  | false => simp
  | true => exact storeDrive_eq_decide l r s

/-- Settles O34: aiming writes nothing that the gate and the mix of the engines read. -/
theorem joyMixesAimAndDrive : Obligations.JoyMixesAimAndDrive := by
  intro a s clamp aims drives h v effX effY speed turn l r
  have haim : joyAim a s = if aims then storeAim (h, v) s else s := by
    simp only [joyAim, aimChanged_iff, aim_eq, toCmd_eq, aims, decide_eq_true_eq]
    rfl
  have hdrive (c : Command) (d : Bool) : joyDrive a { s with cmd := c, dirty := d } =
      if drives then storeDrive (l, r) { s with cmd := c, dirty := d }
      else { s with cmd := c, dirty := d } := by
    simp only [joyDrive, driveChanged_iff, drive, toCmd_eq, drives, decide_eq_true_eq]
    rfl
  rw [exec_joy, haim, ite_storeAim, hdrive, ite_storeDrive]

/-- A JOY whose axes have all been seen finds both raw-value gates closed (R131). -/
theorem exec_joy_of_seen {a : Axes} {s : State} (h : s.joy = a) : exec (.joy a) s = .next s := by
  subst h
  have haim : joyAim s.joy s = s := by simp [joyAim, aimChanged_iff]
  have hdrive : joyDrive s.joy s = s := by simp [joyDrive, driveChanged_iff]
  rw [exec_joy, haim, hdrive]

/-! ### PUBP (R143, R144) -/

/-- PUBP on a clean command (R143). -/
theorem exec_pubp_clean {s : State} (h : s.dirty = false) : exec .pubp s = .next s :=
  if_pos h

/-- PUBP on a changed command (R143). -/
theorem exec_pubp_dirty {s : State} (h : s.dirty = true) :
    exec .pubp s = .next { s.emit s.cmd.record with dirty := false } :=
  if_neg (by simp [h])

/-- The tag byte of an INFL record (30_encoding.md R79). -/
theorem Tag.byte_eq (t : Tag) : t.byte = if t = .position then 0x01 else 0x00 := by
  cases t <;> rfl

/-- Settles O40: the record PUBP emits is CMD's, whose tag travels as a byte. -/
theorem publicationHappensOnlyWhenDirty : Obligations.PublicationHappensOnlyWhenDirty := by
  refine fun s => ⟨exec_pubp_clean, fun h => ?_⟩
  rw [exec_pubp_dirty h, ← Tag.byte_eq]
  rfl

/-- PUBP leaves DIRTY clear and the last-seen axes alone. -/
theorem exec_pubp_leaves (s : State) :
    ∃ t, exec .pubp s = .next t ∧ t.dirty = false ∧ t.joy = s.joy := by
  cases h : s.dirty with
  | false => exact ⟨s, exec_pubp_clean h, h, rfl⟩
  | true => exact ⟨_, exec_pubp_dirty h, rfl, rfl⟩

/-- Settles O35: after JOY its axes have been seen, and PUBP leaves the command clean and the axes seen. -/
theorem repeatedJoyIsAbsorbed : Obligations.RepeatedJoyIsAbsorbed := by
  intro a s
  obtain ⟨t, hjoy, hseen⟩ : ∃ t, exec (.joy a) s = .next t ∧ t.joy = a := ⟨_, exec_joy a s, rfl⟩
  obtain ⟨u, hpubp, hclean, hkept⟩ := exec_pubp_leaves t
  have hagain : exec (.joy a) t = .next t := exec_joy_of_seen hseen
  refine ⟨?twice, ?published, ?thenPublished⟩
  case twice => rw [execAll_cons hjoy, execAll_cons hagain, execAll_cons hjoy]
  case published =>
    rw [execAll_cons hjoy, execAll_cons hpubp, execAll_cons (exec_joy_of_seen (hkept.trans hseen)),
      execAll_cons (exec_pubp_clean hclean), execAll_cons hjoy, execAll_cons hpubp]
  case thenPublished => rw [execAll_cons hjoy, execAll_cons hagain, execAll_cons hjoy]

end Sys2Proof.Machine
end

section
/-! The Mode State Machine's operation (spec/45_mode.md): what TSTA writes, and the publication it makes the next
PUBP emit. -/

namespace Sys2Proof.Machine

/-! ### TSTA (R148) -/

/-- TSTA in one equation: the mode its operand selects, the tag of that mode, and DIRTY. -/
theorem exec_tsta (t : Byte) (s : State) :
    exec (.tsta t) s = .next { s with
      mode := modeOfStatus (boolOperand t)
      cmd := { s.cmd with tag := (modeOfStatus (boolOperand t)).tag }
      dirty := true } := rfl

/-- A tracking status that is not the zero byte is true (30_encoding.md R69). -/
theorem modeOfStatus_of_ne_zero {t : Byte} (h : t ≠ 0) : modeOfStatus (boolOperand t) = .track :=
  if_pos (bne_iff_ne.mpr h)

/-- Settles O41: the operand, zero or not, decides the mode, and the mode its tag. -/
theorem trackingStatusSelectsModeAndTag : Obligations.TrackingStatusSelectsModeAndTag := by
  intro t s
  refine ⟨fun hzero => ?search, fun hne => ?track⟩
  case search => subst hzero; exact exec_tsta 0 s
  case track => rw [exec_tsta, modeOfStatus_of_ne_zero hne]; rfl

/-! ### TSTA, then PUBP (R149, R151) -/

/-- TSTA marks the command as changed whatever it was before, so the PUBP after it publishes the command once,
under the new tag. -/
theorem execAll_tsta_pubp (t : Byte) (s : State) :
    execAll [.tsta t, .pubp] s = .next { s with
      mode := modeOfStatus (boolOperand t)
      cmd := { s.cmd with tag := (modeOfStatus (boolOperand t)).tag }
      dirty := false
      outPort := s.outPort ++
        [Command.record { s.cmd with tag := (modeOfStatus (boolOperand t)).tag }] } := by
  rw [execAll_cons (exec_tsta t s), execAll_cons (exec_pubp_dirty rfl)]
  rfl

/-- Settles O42: the run is two publications, and the second differs from the first in the tag alone. -/
theorem tagsAlternateAcrossModes : Obligations.TagsAlternateAcrossModes := by
  intro s
  have hsplit : [Instr.tsta 1, .pubp, .tsta 0, .pubp] = [.tsta 1, .pubp] ++ [.tsta 0, .pubp] := rfl
  rw [hsplit, execAll_append (execAll_tsta_pubp 1 s), execAll_tsta_pubp, List.append_assoc]
  rfl

end Sys2Proof.Machine
end

section
/-! The system operation RST (spec/46_system.md R152): the reset state's values (70_reset_and_hazards.md R176), and
what RST keeps beside them. -/

namespace Sys2Proof.Machine

/-- The reset state, each constant at its value (R176). -/
theorem State.reset_eq : State.reset = {
    buf := [], syncst := .seeking, link := false, wdcnt := 0, txcnt := 0, lnkopen := false,
    joy := ⟨0, 0, 0, 0, 0, 0, 0, 0⟩, dev := ⟨0, 0⟩, cal := ⟨0, 0⟩, liml := 32767, limr := 32767,
    mode := .search, cmd := ⟨0, 0, 0, 0, 0, 0, .velocity⟩, dirty := false,
    pending := [], outPort := [] } := rfl

/-- RST keeps of the state it finds the two ports alone (R152; log entries 1 and 2). -/
theorem exec_rst (s : State) :
    exec .rst s = .next { State.reset with pending := s.pending, outPort := s.outPort } := rfl

/-- Settles O44: what RST answers is the reset state but for its ports, and the reset state's values are R176's. -/
theorem rstRestoresTheResetState : Obligations.RstRestoresTheResetState := by
  intro s
  rw [exec_rst, State.reset_eq]

end Sys2Proof.Machine
end

section
/-! The idle step (spec/60_exceptions.md R174), recovery (R175) and the reset state (70_reset_and_hazards.md
R176). -/

namespace Sys2Proof.Machine

/-- Settles O12: with nothing presented the step fetches nothing (R174; log entry 1). -/
theorem idleStepKeepsTheState : Obligations.IdleStepKeepsTheState := fun _ => step_of_nothing

/-- Settles O45: RST leaves the synchronizer aligned and the link offline, so the frame after it is published, and
announced before that. -/
theorem recoveryFromEveryState : Obligations.RecoveryFromEveryState := by
  intro y p r s
  have haligned : Aligned { State.reset with pending := s.pending, outPort := s.outPort } := ⟨rfl, rfl⟩
  have hoffline : State.reset.link ≠ true := by decide
  obtain ⟨t, hframe, -, hwdcnt, hlink, hout⟩ := exec_rxd_frame y p r haligned
  refine ⟨t, ?_, hlink, hwdcnt, ?_⟩
  · rw [execAll_cons (exec_rst s), execAll_cons hframe, execAll]
  · rw [hout, if_neg hoffline, List.append_assoc]
    rfl

/-- Settles O43: R176's values hold whatever the two ports hold, so both at power-on, where the ports are empty, and
after RST, which keeps them. -/
theorem resetStateIsTheSpecs : Obligations.ResetStateIsTheSpecs := by
  unfold Obligations.ResetStateIsTheSpecs
  intro atReset
  have hreset (pending : List Item) (outPort : List Record) :
      atReset { State.reset with pending := pending, outPort := outPort } := by
    simp [atReset, State.reset_eq]
  exact ⟨hreset [] [], fun s => ⟨_, exec_rst s, hreset s.pending s.outPort⟩⟩

end Sys2Proof.Machine
end
